-- ==== Sys2Proof/Word.lean ====
section
/-! DEFINITION. The two word types of the hardware (00_scope R12): 8-bit bytes and 16-bit words. -/

namespace Sys2Proof

/-- A byte of memory or an 8-bit register (00_scope R12, R16). -/
abbrev Byte := BitVec 8

/-- A 16-bit CPU address or the program counter (00_scope R12). -/
abbrev Word := BitVec 16

end Sys2Proof
end

