-- ==== Sys2Proof/Config.lean ====
section
/-! DEFINITION. What the implementation fixes (addresses of the vectors, sizes of the memories) and the one free value
of the model: the bytes that the external device ports return. -/

namespace Sys2Proof

/-- FREE VALUE (00_scope R14; 20_memory R81; 92 D16; log entry 3): the byte that the n-th read of an external device
port (PPU, APU, Input) returns. It has no value that a proof could see. -/
opaque Config.portByte : Nat → Byte

/-- NMI vector, 0xFFFA/0xFFFB (20_memory R102). -/
abbrev Config.nmiVector : Word := 0xFFFA#16

/-- RESET vector, 0xFFFC/0xFFFD (20_memory R102). -/
abbrev Config.resetVector : Word := 0xFFFC#16

/-- IRQ/BRK vector, 0xFFFE/0xFFFF (20_memory R102; 90_conflicts C5). -/
abbrev Config.irqVector : Word := 0xFFFE#16

/-- System RAM, bytes (00_scope R12). -/
abbrev Config.ramSize : Nat := 0x800

/-- PRG-RAM, bytes (00_scope R13; 92 D22). -/
abbrev Config.prgRamSize : Nat := 0x2000

/-- CHR-RAM, bytes (00_scope R13; 20_memory R113). -/
abbrev Config.chrRamSize : Nat := 0x2000

/-- One PRG-ROM bank, bytes (00_scope R13). -/
abbrev Config.prgBankSize : Nat := 0x4000

/-- One CHR-ROM bank, bytes (00_scope R13). -/
abbrev Config.chrBankSize : Nat := 0x2000

end Sys2Proof
end

