-- ==== Sys2Proof/Syntax.lean ====
section
/-! DEFINITION. The instructions as syntax: one constructor for each documented row of spec/opcode_table.json (mnemonic and
addressing mode, 30_encoding R177, R178), and one for the 105 illegal rows (R179), which carries the byte (log entry 8). -/

namespace Sys2Proof

/-- The thirteen addressing modes with their operand bytes assembled (30_encoding R170, R174, R176). -/
inductive Mode where
  | implied
  | accumulator
  | immediate (b : Byte)
  | zeroPage (z : Byte)
  | zeroPageX (z : Byte)
  | zeroPageY (z : Byte)
  | absolute (a : Word)
  | absoluteX (a : Word)
  | absoluteY (a : Word)
  | indirectX (z : Byte)
  | indirectY (z : Byte)
  | relative (off : Byte)
  | indirect (ptr : Word)
  deriving DecidableEq, Repr

/-- The 56 mnemonics (30_encoding R178) and `unknown`, the decoder's answer for an illegal byte (R175, R179). -/
inductive Mnemonic where
  | lda | ldx | ldy | sta | stx | sty | tax | tay | txa | tya | tsx | txs | pha | php
  | pla | plp | adc | sbc | and | ora | eor | cmp | cpx | cpy | bit | asl | lsr | rol
  | ror | inc | dec | inx | iny | dex | dey | bpl | bmi | bvc | bvs | bcc | bcs | bne
  | beq | jmp | jsr | rts | brk | rti | clc | sec | cli | sei | clv | cld | sed | nop
  | unknown
  deriving DecidableEq, Repr

/-- The instruction set. A constructor's name is its mnemonic and its mode: `Imm` Immediate, `Zp` ZeroPage, `ZpX`, `ZpY`
indexed ZeroPage, `Abs` Absolute, `AbsX`, `AbsY` indexed Absolute, `IndX` (Indirect,X), `IndY` (Indirect),Y, `Acc`
Accumulator, `Ind` Indirect; no suffix for the one mode a mnemonic has. An operand word is already assembled low byte
first (30_encoding R174). -/
inductive Instr where
  | ldaImm (b : Byte) | ldaZp (z : Byte) | ldaZpX (z : Byte) | ldaAbs (a : Word) | ldaAbsX (a : Word) | ldaAbsY (a : Word) | ldaIndX (z : Byte) | ldaIndY (z : Byte)
  | ldxImm (b : Byte) | ldxZp (z : Byte) | ldxZpY (z : Byte) | ldxAbs (a : Word) | ldxAbsY (a : Word)
  | ldyImm (b : Byte) | ldyZp (z : Byte) | ldyZpX (z : Byte) | ldyAbs (a : Word) | ldyAbsX (a : Word)
  | staZp (z : Byte) | staZpX (z : Byte) | staAbs (a : Word) | staAbsX (a : Word) | staAbsY (a : Word) | staIndX (z : Byte) | staIndY (z : Byte)
  | stxZp (z : Byte) | stxZpY (z : Byte) | stxAbs (a : Word)
  | styZp (z : Byte) | styZpX (z : Byte) | styAbs (a : Word)
  | tax
  | tay
  | txa
  | tya
  | tsx
  | txs
  | pha
  | php
  | pla
  | plp
  | adcImm (b : Byte) | adcZp (z : Byte) | adcZpX (z : Byte) | adcAbs (a : Word) | adcAbsX (a : Word) | adcAbsY (a : Word) | adcIndX (z : Byte) | adcIndY (z : Byte)
  | sbcImm (b : Byte) | sbcZp (z : Byte) | sbcZpX (z : Byte) | sbcAbs (a : Word) | sbcAbsX (a : Word) | sbcAbsY (a : Word) | sbcIndX (z : Byte) | sbcIndY (z : Byte)
  | andImm (b : Byte) | andZp (z : Byte) | andZpX (z : Byte) | andAbs (a : Word) | andAbsX (a : Word) | andAbsY (a : Word) | andIndX (z : Byte) | andIndY (z : Byte)
  | oraImm (b : Byte) | oraZp (z : Byte) | oraZpX (z : Byte) | oraAbs (a : Word) | oraAbsX (a : Word) | oraAbsY (a : Word) | oraIndX (z : Byte) | oraIndY (z : Byte)
  | eorImm (b : Byte) | eorZp (z : Byte) | eorZpX (z : Byte) | eorAbs (a : Word) | eorAbsX (a : Word) | eorAbsY (a : Word) | eorIndX (z : Byte) | eorIndY (z : Byte)
  | cmpImm (b : Byte) | cmpZp (z : Byte) | cmpZpX (z : Byte) | cmpAbs (a : Word) | cmpAbsX (a : Word) | cmpAbsY (a : Word) | cmpIndX (z : Byte) | cmpIndY (z : Byte)
  | cpxImm (b : Byte) | cpxZp (z : Byte) | cpxAbs (a : Word)
  | cpyImm (b : Byte) | cpyZp (z : Byte) | cpyAbs (a : Word)
  | bitZp (z : Byte) | bitAbs (a : Word)
  | aslAcc | aslZp (z : Byte) | aslZpX (z : Byte) | aslAbs (a : Word) | aslAbsX (a : Word)
  | lsrAcc | lsrZp (z : Byte) | lsrZpX (z : Byte) | lsrAbs (a : Word) | lsrAbsX (a : Word)
  | rolAcc | rolZp (z : Byte) | rolZpX (z : Byte) | rolAbs (a : Word) | rolAbsX (a : Word)
  | rorAcc | rorZp (z : Byte) | rorZpX (z : Byte) | rorAbs (a : Word) | rorAbsX (a : Word)
  | incZp (z : Byte) | incZpX (z : Byte) | incAbs (a : Word) | incAbsX (a : Word)
  | decZp (z : Byte) | decZpX (z : Byte) | decAbs (a : Word) | decAbsX (a : Word)
  | inx
  | iny
  | dex
  | dey
  | bpl (off : Byte)
  | bmi (off : Byte)
  | bvc (off : Byte)
  | bvs (off : Byte)
  | bcc (off : Byte)
  | bcs (off : Byte)
  | bne (off : Byte)
  | beq (off : Byte)
  | jmpAbs (a : Word) | jmpInd (ptr : Word)
  | jsr (a : Word)
  | rts
  | brk
  | rti
  | clc
  | sec
  | cli
  | sei
  | clv
  | cld
  | sed
  | nop
  | unknown (opcode : Byte)
  deriving DecidableEq, Repr

/-- The mnemonic of an instruction (30_encoding R178). -/
def Instr.mnemonic : Instr → Mnemonic
  | .ldaImm _ | .ldaZp _ | .ldaZpX _ | .ldaAbs _ | .ldaAbsX _ | .ldaAbsY _ | .ldaIndX _ | .ldaIndY _ => .lda
  | .ldxImm _ | .ldxZp _ | .ldxZpY _ | .ldxAbs _ | .ldxAbsY _ => .ldx
  | .ldyImm _ | .ldyZp _ | .ldyZpX _ | .ldyAbs _ | .ldyAbsX _ => .ldy
  | .staZp _ | .staZpX _ | .staAbs _ | .staAbsX _ | .staAbsY _ | .staIndX _ | .staIndY _ => .sta
  | .stxZp _ | .stxZpY _ | .stxAbs _ => .stx
  | .styZp _ | .styZpX _ | .styAbs _ => .sty
  | .tax => .tax
  | .tay => .tay
  | .txa => .txa
  | .tya => .tya
  | .tsx => .tsx
  | .txs => .txs
  | .pha => .pha
  | .php => .php
  | .pla => .pla
  | .plp => .plp
  | .adcImm _ | .adcZp _ | .adcZpX _ | .adcAbs _ | .adcAbsX _ | .adcAbsY _ | .adcIndX _ | .adcIndY _ => .adc
  | .sbcImm _ | .sbcZp _ | .sbcZpX _ | .sbcAbs _ | .sbcAbsX _ | .sbcAbsY _ | .sbcIndX _ | .sbcIndY _ => .sbc
  | .andImm _ | .andZp _ | .andZpX _ | .andAbs _ | .andAbsX _ | .andAbsY _ | .andIndX _ | .andIndY _ => .and
  | .oraImm _ | .oraZp _ | .oraZpX _ | .oraAbs _ | .oraAbsX _ | .oraAbsY _ | .oraIndX _ | .oraIndY _ => .ora
  | .eorImm _ | .eorZp _ | .eorZpX _ | .eorAbs _ | .eorAbsX _ | .eorAbsY _ | .eorIndX _ | .eorIndY _ => .eor
  | .cmpImm _ | .cmpZp _ | .cmpZpX _ | .cmpAbs _ | .cmpAbsX _ | .cmpAbsY _ | .cmpIndX _ | .cmpIndY _ => .cmp
  | .cpxImm _ | .cpxZp _ | .cpxAbs _ => .cpx
  | .cpyImm _ | .cpyZp _ | .cpyAbs _ => .cpy
  | .bitZp _ | .bitAbs _ => .bit
  | .aslAcc | .aslZp _ | .aslZpX _ | .aslAbs _ | .aslAbsX _ => .asl
  | .lsrAcc | .lsrZp _ | .lsrZpX _ | .lsrAbs _ | .lsrAbsX _ => .lsr
  | .rolAcc | .rolZp _ | .rolZpX _ | .rolAbs _ | .rolAbsX _ => .rol
  | .rorAcc | .rorZp _ | .rorZpX _ | .rorAbs _ | .rorAbsX _ => .ror
  | .incZp _ | .incZpX _ | .incAbs _ | .incAbsX _ => .inc
  | .decZp _ | .decZpX _ | .decAbs _ | .decAbsX _ => .dec
  | .inx => .inx
  | .iny => .iny
  | .dex => .dex
  | .dey => .dey
  | .bpl _ => .bpl
  | .bmi _ => .bmi
  | .bvc _ => .bvc
  | .bvs _ => .bvs
  | .bcc _ => .bcc
  | .bcs _ => .bcs
  | .bne _ => .bne
  | .beq _ => .beq
  | .jmpAbs _ | .jmpInd _ => .jmp
  | .jsr _ => .jsr
  | .rts => .rts
  | .brk => .brk
  | .rti => .rti
  | .clc => .clc
  | .sec => .sec
  | .cli => .cli
  | .sei => .sei
  | .clv => .clv
  | .cld => .cld
  | .sed => .sed
  | .nop => .nop
  | .unknown _ => .unknown

/-- The addressing mode of an instruction with its operand (30_encoding R178). An illegal byte has no operand (R179). -/
def Instr.mode : Instr → Mode
  | .ldaImm b => .immediate b
  | .ldaZp z => .zeroPage z
  | .ldaZpX z => .zeroPageX z
  | .ldaAbs a => .absolute a
  | .ldaAbsX a => .absoluteX a
  | .ldaAbsY a => .absoluteY a
  | .ldaIndX z => .indirectX z
  | .ldaIndY z => .indirectY z
  | .ldxImm b => .immediate b
  | .ldxZp z => .zeroPage z
  | .ldxZpY z => .zeroPageY z
  | .ldxAbs a => .absolute a
  | .ldxAbsY a => .absoluteY a
  | .ldyImm b => .immediate b
  | .ldyZp z => .zeroPage z
  | .ldyZpX z => .zeroPageX z
  | .ldyAbs a => .absolute a
  | .ldyAbsX a => .absoluteX a
  | .staZp z => .zeroPage z
  | .staZpX z => .zeroPageX z
  | .staAbs a => .absolute a
  | .staAbsX a => .absoluteX a
  | .staAbsY a => .absoluteY a
  | .staIndX z => .indirectX z
  | .staIndY z => .indirectY z
  | .stxZp z => .zeroPage z
  | .stxZpY z => .zeroPageY z
  | .stxAbs a => .absolute a
  | .styZp z => .zeroPage z
  | .styZpX z => .zeroPageX z
  | .styAbs a => .absolute a
  | .tax => .implied
  | .tay => .implied
  | .txa => .implied
  | .tya => .implied
  | .tsx => .implied
  | .txs => .implied
  | .pha => .implied
  | .php => .implied
  | .pla => .implied
  | .plp => .implied
  | .adcImm b => .immediate b
  | .adcZp z => .zeroPage z
  | .adcZpX z => .zeroPageX z
  | .adcAbs a => .absolute a
  | .adcAbsX a => .absoluteX a
  | .adcAbsY a => .absoluteY a
  | .adcIndX z => .indirectX z
  | .adcIndY z => .indirectY z
  | .sbcImm b => .immediate b
  | .sbcZp z => .zeroPage z
  | .sbcZpX z => .zeroPageX z
  | .sbcAbs a => .absolute a
  | .sbcAbsX a => .absoluteX a
  | .sbcAbsY a => .absoluteY a
  | .sbcIndX z => .indirectX z
  | .sbcIndY z => .indirectY z
  | .andImm b => .immediate b
  | .andZp z => .zeroPage z
  | .andZpX z => .zeroPageX z
  | .andAbs a => .absolute a
  | .andAbsX a => .absoluteX a
  | .andAbsY a => .absoluteY a
  | .andIndX z => .indirectX z
  | .andIndY z => .indirectY z
  | .oraImm b => .immediate b
  | .oraZp z => .zeroPage z
  | .oraZpX z => .zeroPageX z
  | .oraAbs a => .absolute a
  | .oraAbsX a => .absoluteX a
  | .oraAbsY a => .absoluteY a
  | .oraIndX z => .indirectX z
  | .oraIndY z => .indirectY z
  | .eorImm b => .immediate b
  | .eorZp z => .zeroPage z
  | .eorZpX z => .zeroPageX z
  | .eorAbs a => .absolute a
  | .eorAbsX a => .absoluteX a
  | .eorAbsY a => .absoluteY a
  | .eorIndX z => .indirectX z
  | .eorIndY z => .indirectY z
  | .cmpImm b => .immediate b
  | .cmpZp z => .zeroPage z
  | .cmpZpX z => .zeroPageX z
  | .cmpAbs a => .absolute a
  | .cmpAbsX a => .absoluteX a
  | .cmpAbsY a => .absoluteY a
  | .cmpIndX z => .indirectX z
  | .cmpIndY z => .indirectY z
  | .cpxImm b => .immediate b
  | .cpxZp z => .zeroPage z
  | .cpxAbs a => .absolute a
  | .cpyImm b => .immediate b
  | .cpyZp z => .zeroPage z
  | .cpyAbs a => .absolute a
  | .bitZp z => .zeroPage z
  | .bitAbs a => .absolute a
  | .aslAcc => .accumulator
  | .aslZp z => .zeroPage z
  | .aslZpX z => .zeroPageX z
  | .aslAbs a => .absolute a
  | .aslAbsX a => .absoluteX a
  | .lsrAcc => .accumulator
  | .lsrZp z => .zeroPage z
  | .lsrZpX z => .zeroPageX z
  | .lsrAbs a => .absolute a
  | .lsrAbsX a => .absoluteX a
  | .rolAcc => .accumulator
  | .rolZp z => .zeroPage z
  | .rolZpX z => .zeroPageX z
  | .rolAbs a => .absolute a
  | .rolAbsX a => .absoluteX a
  | .rorAcc => .accumulator
  | .rorZp z => .zeroPage z
  | .rorZpX z => .zeroPageX z
  | .rorAbs a => .absolute a
  | .rorAbsX a => .absoluteX a
  | .incZp z => .zeroPage z
  | .incZpX z => .zeroPageX z
  | .incAbs a => .absolute a
  | .incAbsX a => .absoluteX a
  | .decZp z => .zeroPage z
  | .decZpX z => .zeroPageX z
  | .decAbs a => .absolute a
  | .decAbsX a => .absoluteX a
  | .inx => .implied
  | .iny => .implied
  | .dex => .implied
  | .dey => .implied
  | .bpl off => .relative off
  | .bmi off => .relative off
  | .bvc off => .relative off
  | .bvs off => .relative off
  | .bcc off => .relative off
  | .bcs off => .relative off
  | .bne off => .relative off
  | .beq off => .relative off
  | .jmpAbs a => .absolute a
  | .jmpInd ptr => .indirect ptr
  | .jsr a => .absolute a
  | .rts => .implied
  | .brk => .implied
  | .rti => .implied
  | .clc => .implied
  | .sec => .implied
  | .cli => .implied
  | .sei => .implied
  | .clv => .implied
  | .cld => .implied
  | .sed => .implied
  | .nop => .implied
  | .unknown _ => .implied

end Sys2Proof
end

