-- ==== Sys2Proof/Decode.lean ====
section
/-! DEFINITION. The decoder: bit-field helpers, the opcode map of 30_encoding R177 as a grid of cells, decoding of bytes
(total, rejecting by name), the encoder written from R178's list by mnemonic, and the cycle counts of R200 to R203. -/

namespace Sys2Proof

/-- `hi(w)`: bits 15 to 8 (00_scope, notation). -/
def hiByte (w : Word) : Byte := w.extractLsb' 8 8

/-- `lo(w)`: bits 7 to 0 (00_scope, notation). -/
def loByte (w : Word) : Byte := w.extractLsb' 0 8

/-- The concatenation `hi * 256 + lo` of two bytes (00_scope, notation). -/
def mkWord (hi lo : Byte) : Word := hi ++ lo

/-- `zext_16` (00_scope, notation). -/
def zext16 (b : Byte) : Word := b.setWidth 16

/-- `sext_16`, two's complement (00_scope, notation and R16). -/
def sext16 (b : Byte) : Word := b.signExtend 16

/-- How a cell of the opcode map builds an instruction from its operand bytes (30_encoding R170). -/
inductive Form where
  | implied (i : Instr)
  | byteOperand (f : Byte → Instr)
  | wordOperand (f : Word → Instr)
  | illegal

/-- The cycle penalty of a cell: none, `*` of R201, or `**` of R202. -/
inductive Penalty where
  | fixed
  | readCross
  | branch
  deriving DecidableEq, Repr

/-- A cell of the opcode map R177: the instruction, the base cycle count and the penalty mark. -/
structure Cell where
  form : Form
  baseCycles : Nat
  penalty : Penalty

/-- The cell `--` of R177 (30_encoding R179): it has no cycle count. -/
def illegalCell : Cell := ⟨.illegal, 0, .fixed⟩

/-- Opcode bytes 0x00 to 0x0F (30_encoding R177). -/
def opcodeRow0 : List Cell := [
  ⟨.implied .brk, 7, .fixed⟩, ⟨.byteOperand .oraIndX, 6, .fixed⟩, illegalCell, illegalCell, illegalCell,
  ⟨.byteOperand .oraZp, 3, .fixed⟩, ⟨.byteOperand .aslZp, 5, .fixed⟩, illegalCell, ⟨.implied .php, 3, .fixed⟩,
  ⟨.byteOperand .oraImm, 2, .fixed⟩, ⟨.implied .aslAcc, 2, .fixed⟩, illegalCell, illegalCell,
  ⟨.wordOperand .oraAbs, 4, .fixed⟩, ⟨.wordOperand .aslAbs, 6, .fixed⟩, illegalCell]

/-- Opcode bytes 0x10 to 0x1F (30_encoding R177). -/
def opcodeRow1 : List Cell := [
  ⟨.byteOperand .bpl, 2, .branch⟩, ⟨.byteOperand .oraIndY, 5, .readCross⟩, illegalCell, illegalCell, illegalCell,
  ⟨.byteOperand .oraZpX, 4, .fixed⟩, ⟨.byteOperand .aslZpX, 6, .fixed⟩, illegalCell, ⟨.implied .clc, 2, .fixed⟩,
  ⟨.wordOperand .oraAbsY, 4, .readCross⟩, illegalCell, illegalCell, illegalCell,
  ⟨.wordOperand .oraAbsX, 4, .readCross⟩, ⟨.wordOperand .aslAbsX, 7, .fixed⟩, illegalCell]

/-- Opcode bytes 0x20 to 0x2F (30_encoding R177). -/
def opcodeRow2 : List Cell := [
  ⟨.wordOperand .jsr, 6, .fixed⟩, ⟨.byteOperand .andIndX, 6, .fixed⟩, illegalCell, illegalCell,
  ⟨.byteOperand .bitZp, 3, .fixed⟩, ⟨.byteOperand .andZp, 3, .fixed⟩, ⟨.byteOperand .rolZp, 5, .fixed⟩, illegalCell,
  ⟨.implied .plp, 4, .fixed⟩, ⟨.byteOperand .andImm, 2, .fixed⟩, ⟨.implied .rolAcc, 2, .fixed⟩, illegalCell,
  ⟨.wordOperand .bitAbs, 4, .fixed⟩, ⟨.wordOperand .andAbs, 4, .fixed⟩, ⟨.wordOperand .rolAbs, 6, .fixed⟩,
  illegalCell]

/-- Opcode bytes 0x30 to 0x3F (30_encoding R177). -/
def opcodeRow3 : List Cell := [
  ⟨.byteOperand .bmi, 2, .branch⟩, ⟨.byteOperand .andIndY, 5, .readCross⟩, illegalCell, illegalCell, illegalCell,
  ⟨.byteOperand .andZpX, 4, .fixed⟩, ⟨.byteOperand .rolZpX, 6, .fixed⟩, illegalCell, ⟨.implied .sec, 2, .fixed⟩,
  ⟨.wordOperand .andAbsY, 4, .readCross⟩, illegalCell, illegalCell, illegalCell,
  ⟨.wordOperand .andAbsX, 4, .readCross⟩, ⟨.wordOperand .rolAbsX, 7, .fixed⟩, illegalCell]

/-- Opcode bytes 0x40 to 0x4F (30_encoding R177). -/
def opcodeRow4 : List Cell := [
  ⟨.implied .rti, 6, .fixed⟩, ⟨.byteOperand .eorIndX, 6, .fixed⟩, illegalCell, illegalCell, illegalCell,
  ⟨.byteOperand .eorZp, 3, .fixed⟩, ⟨.byteOperand .lsrZp, 5, .fixed⟩, illegalCell, ⟨.implied .pha, 3, .fixed⟩,
  ⟨.byteOperand .eorImm, 2, .fixed⟩, ⟨.implied .lsrAcc, 2, .fixed⟩, illegalCell, ⟨.wordOperand .jmpAbs, 3, .fixed⟩,
  ⟨.wordOperand .eorAbs, 4, .fixed⟩, ⟨.wordOperand .lsrAbs, 6, .fixed⟩, illegalCell]

/-- Opcode bytes 0x50 to 0x5F (30_encoding R177). -/
def opcodeRow5 : List Cell := [
  ⟨.byteOperand .bvc, 2, .branch⟩, ⟨.byteOperand .eorIndY, 5, .readCross⟩, illegalCell, illegalCell, illegalCell,
  ⟨.byteOperand .eorZpX, 4, .fixed⟩, ⟨.byteOperand .lsrZpX, 6, .fixed⟩, illegalCell, ⟨.implied .cli, 2, .fixed⟩,
  ⟨.wordOperand .eorAbsY, 4, .readCross⟩, illegalCell, illegalCell, illegalCell,
  ⟨.wordOperand .eorAbsX, 4, .readCross⟩, ⟨.wordOperand .lsrAbsX, 7, .fixed⟩, illegalCell]

/-- Opcode bytes 0x60 to 0x6F (30_encoding R177). -/
def opcodeRow6 : List Cell := [
  ⟨.implied .rts, 6, .fixed⟩, ⟨.byteOperand .adcIndX, 6, .fixed⟩, illegalCell, illegalCell, illegalCell,
  ⟨.byteOperand .adcZp, 3, .fixed⟩, ⟨.byteOperand .rorZp, 5, .fixed⟩, illegalCell, ⟨.implied .pla, 4, .fixed⟩,
  ⟨.byteOperand .adcImm, 2, .fixed⟩, ⟨.implied .rorAcc, 2, .fixed⟩, illegalCell, ⟨.wordOperand .jmpInd, 5, .fixed⟩,
  ⟨.wordOperand .adcAbs, 4, .fixed⟩, ⟨.wordOperand .rorAbs, 6, .fixed⟩, illegalCell]

/-- Opcode bytes 0x70 to 0x7F (30_encoding R177). -/
def opcodeRow7 : List Cell := [
  ⟨.byteOperand .bvs, 2, .branch⟩, ⟨.byteOperand .adcIndY, 5, .readCross⟩, illegalCell, illegalCell, illegalCell,
  ⟨.byteOperand .adcZpX, 4, .fixed⟩, ⟨.byteOperand .rorZpX, 6, .fixed⟩, illegalCell, ⟨.implied .sei, 2, .fixed⟩,
  ⟨.wordOperand .adcAbsY, 4, .readCross⟩, illegalCell, illegalCell, illegalCell,
  ⟨.wordOperand .adcAbsX, 4, .readCross⟩, ⟨.wordOperand .rorAbsX, 7, .fixed⟩, illegalCell]

/-- Opcode bytes 0x80 to 0x8F (30_encoding R177). -/
def opcodeRow8 : List Cell := [
  illegalCell, ⟨.byteOperand .staIndX, 6, .fixed⟩, illegalCell, illegalCell, ⟨.byteOperand .styZp, 3, .fixed⟩,
  ⟨.byteOperand .staZp, 3, .fixed⟩, ⟨.byteOperand .stxZp, 3, .fixed⟩, illegalCell, ⟨.implied .dey, 2, .fixed⟩,
  illegalCell, ⟨.implied .txa, 2, .fixed⟩, illegalCell, ⟨.wordOperand .styAbs, 4, .fixed⟩,
  ⟨.wordOperand .staAbs, 4, .fixed⟩, ⟨.wordOperand .stxAbs, 4, .fixed⟩, illegalCell]

/-- Opcode bytes 0x90 to 0x9F (30_encoding R177). -/
def opcodeRow9 : List Cell := [
  ⟨.byteOperand .bcc, 2, .branch⟩, ⟨.byteOperand .staIndY, 6, .fixed⟩, illegalCell, illegalCell,
  ⟨.byteOperand .styZpX, 4, .fixed⟩, ⟨.byteOperand .staZpX, 4, .fixed⟩, ⟨.byteOperand .stxZpY, 4, .fixed⟩,
  illegalCell, ⟨.implied .tya, 2, .fixed⟩, ⟨.wordOperand .staAbsY, 5, .fixed⟩, ⟨.implied .txs, 2, .fixed⟩,
  illegalCell, illegalCell, ⟨.wordOperand .staAbsX, 5, .fixed⟩, illegalCell, illegalCell]

/-- Opcode bytes 0xA0 to 0xAF (30_encoding R177). -/
def opcodeRowA : List Cell := [
  ⟨.byteOperand .ldyImm, 2, .fixed⟩, ⟨.byteOperand .ldaIndX, 6, .fixed⟩, ⟨.byteOperand .ldxImm, 2, .fixed⟩,
  illegalCell, ⟨.byteOperand .ldyZp, 3, .fixed⟩, ⟨.byteOperand .ldaZp, 3, .fixed⟩, ⟨.byteOperand .ldxZp, 3, .fixed⟩,
  illegalCell, ⟨.implied .tay, 2, .fixed⟩, ⟨.byteOperand .ldaImm, 2, .fixed⟩, ⟨.implied .tax, 2, .fixed⟩,
  illegalCell, ⟨.wordOperand .ldyAbs, 4, .fixed⟩, ⟨.wordOperand .ldaAbs, 4, .fixed⟩,
  ⟨.wordOperand .ldxAbs, 4, .fixed⟩, illegalCell]

/-- Opcode bytes 0xB0 to 0xBF (30_encoding R177). -/
def opcodeRowB : List Cell := [
  ⟨.byteOperand .bcs, 2, .branch⟩, ⟨.byteOperand .ldaIndY, 5, .readCross⟩, illegalCell, illegalCell,
  ⟨.byteOperand .ldyZpX, 4, .fixed⟩, ⟨.byteOperand .ldaZpX, 4, .fixed⟩, ⟨.byteOperand .ldxZpY, 4, .fixed⟩,
  illegalCell, ⟨.implied .clv, 2, .fixed⟩, ⟨.wordOperand .ldaAbsY, 4, .readCross⟩, ⟨.implied .tsx, 2, .fixed⟩,
  illegalCell, ⟨.wordOperand .ldyAbsX, 4, .readCross⟩, ⟨.wordOperand .ldaAbsX, 4, .readCross⟩,
  ⟨.wordOperand .ldxAbsY, 4, .readCross⟩, illegalCell]

/-- Opcode bytes 0xC0 to 0xCF (30_encoding R177). -/
def opcodeRowC : List Cell := [
  ⟨.byteOperand .cpyImm, 2, .fixed⟩, ⟨.byteOperand .cmpIndX, 6, .fixed⟩, illegalCell, illegalCell,
  ⟨.byteOperand .cpyZp, 3, .fixed⟩, ⟨.byteOperand .cmpZp, 3, .fixed⟩, ⟨.byteOperand .decZp, 5, .fixed⟩, illegalCell,
  ⟨.implied .iny, 2, .fixed⟩, ⟨.byteOperand .cmpImm, 2, .fixed⟩, ⟨.implied .dex, 2, .fixed⟩, illegalCell,
  ⟨.wordOperand .cpyAbs, 4, .fixed⟩, ⟨.wordOperand .cmpAbs, 4, .fixed⟩, ⟨.wordOperand .decAbs, 6, .fixed⟩,
  illegalCell]

/-- Opcode bytes 0xD0 to 0xDF (30_encoding R177). -/
def opcodeRowD : List Cell := [
  ⟨.byteOperand .bne, 2, .branch⟩, ⟨.byteOperand .cmpIndY, 5, .readCross⟩, illegalCell, illegalCell, illegalCell,
  ⟨.byteOperand .cmpZpX, 4, .fixed⟩, ⟨.byteOperand .decZpX, 6, .fixed⟩, illegalCell, ⟨.implied .cld, 2, .fixed⟩,
  ⟨.wordOperand .cmpAbsY, 4, .readCross⟩, illegalCell, illegalCell, illegalCell,
  ⟨.wordOperand .cmpAbsX, 4, .readCross⟩, ⟨.wordOperand .decAbsX, 7, .fixed⟩, illegalCell]

/-- Opcode bytes 0xE0 to 0xEF (30_encoding R177). -/
def opcodeRowE : List Cell := [
  ⟨.byteOperand .cpxImm, 2, .fixed⟩, ⟨.byteOperand .sbcIndX, 6, .fixed⟩, illegalCell, illegalCell,
  ⟨.byteOperand .cpxZp, 3, .fixed⟩, ⟨.byteOperand .sbcZp, 3, .fixed⟩, ⟨.byteOperand .incZp, 5, .fixed⟩, illegalCell,
  ⟨.implied .inx, 2, .fixed⟩, ⟨.byteOperand .sbcImm, 2, .fixed⟩, ⟨.implied .nop, 2, .fixed⟩, illegalCell,
  ⟨.wordOperand .cpxAbs, 4, .fixed⟩, ⟨.wordOperand .sbcAbs, 4, .fixed⟩, ⟨.wordOperand .incAbs, 6, .fixed⟩,
  illegalCell]

/-- Opcode bytes 0xF0 to 0xFF (30_encoding R177). -/
def opcodeRowF : List Cell := [
  ⟨.byteOperand .beq, 2, .branch⟩, ⟨.byteOperand .sbcIndY, 5, .readCross⟩, illegalCell, illegalCell, illegalCell,
  ⟨.byteOperand .sbcZpX, 4, .fixed⟩, ⟨.byteOperand .incZpX, 6, .fixed⟩, illegalCell, ⟨.implied .sed, 2, .fixed⟩,
  ⟨.wordOperand .sbcAbsY, 4, .readCross⟩, illegalCell, illegalCell, illegalCell,
  ⟨.wordOperand .sbcAbsX, 4, .readCross⟩, ⟨.wordOperand .incAbsX, 7, .fixed⟩, illegalCell]

/-- The opcode map, one row for each high nibble (30_encoding R177). -/
def opcodeMap : List (List Cell) :=
  [opcodeRow0, opcodeRow1, opcodeRow2, opcodeRow3, opcodeRow4, opcodeRow5, opcodeRow6, opcodeRow7,
   opcodeRow8, opcodeRow9, opcodeRowA, opcodeRowB, opcodeRowC, opcodeRowD, opcodeRowE, opcodeRowF]

/-- `Decode(opcode)`: the cell at row bits 7 to 4 and column bits 3 to 0, a function of the byte alone (30_encoding R173, R175). -/
def cellOf (op : Byte) : Cell :=
  (opcodeMap.getD (op.toNat / 16) []).getD (op.toNat % 16) illegalCell

/-- The number of operand bytes of a cell; an illegal byte reads none (30_encoding R170, R179). -/
def operandCount (c : Cell) : Nat :=
  match c.form with
  | .implied _ => 0
  | .byteOperand _ => 1
  | .wordOperand _ => 2
  | .illegal => 0

/-- The instruction of an opcode byte and its operand bytes, the first operand byte being the low one (30_encoding R174). -/
def assemble (op b1 b2 : Byte) : Instr :=
  match (cellOf op).form with
  | .implied i => i
  | .byteOperand f => f b1
  | .wordOperand f => f (mkWord b2 b1)
  | .illegal => .unknown op

/-- Why a list of bytes does not decode: it ends before the opcode, or before the operand bytes of the named opcode. -/
inductive DecodeError where
  | noOpcode
  | missingOperand (opcode : Byte)
  deriving DecidableEq, Repr

/-- Decoding one instruction from a list of bytes: the instruction and the bytes after it (30_encoding R170, R175). Every
opcode byte decodes, the illegal ones to `unknown`. -/
def decode : List Byte → Except DecodeError (Instr × List Byte)
  | [] => .error .noOpcode
  | op :: rest =>
    match operandCount (cellOf op), rest with
    | 0, rest => .ok (assemble op 0#8 0#8, rest)
    | 1, b :: rest => .ok (assemble op b 0#8, rest)
    | 2, lo :: hi :: rest => .ok (assemble op lo hi, rest)
    | _, _ => .error (.missingOperand op)

/-- The opcode byte of an instruction, from R178's list by mnemonic (30_encoding R178). -/
def Instr.opcode : Instr → Byte
  | .ldaImm _ => 0xA9#8 | .ldaZp _ => 0xA5#8 | .ldaZpX _ => 0xB5#8 | .ldaAbs _ => 0xAD#8 | .ldaAbsX _ => 0xBD#8
  | .ldaAbsY _ => 0xB9#8 | .ldaIndX _ => 0xA1#8 | .ldaIndY _ => 0xB1#8
  | .ldxImm _ => 0xA2#8 | .ldxZp _ => 0xA6#8 | .ldxZpY _ => 0xB6#8 | .ldxAbs _ => 0xAE#8 | .ldxAbsY _ => 0xBE#8
  | .ldyImm _ => 0xA0#8 | .ldyZp _ => 0xA4#8 | .ldyZpX _ => 0xB4#8 | .ldyAbs _ => 0xAC#8 | .ldyAbsX _ => 0xBC#8
  | .staZp _ => 0x85#8 | .staZpX _ => 0x95#8 | .staAbs _ => 0x8D#8 | .staAbsX _ => 0x9D#8 | .staAbsY _ => 0x99#8
  | .staIndX _ => 0x81#8 | .staIndY _ => 0x91#8
  | .stxZp _ => 0x86#8 | .stxZpY _ => 0x96#8 | .stxAbs _ => 0x8E#8
  | .styZp _ => 0x84#8 | .styZpX _ => 0x94#8 | .styAbs _ => 0x8C#8
  | .tax => 0xAA#8
  | .tay => 0xA8#8
  | .txa => 0x8A#8
  | .tya => 0x98#8
  | .tsx => 0xBA#8
  | .txs => 0x9A#8
  | .pha => 0x48#8
  | .php => 0x08#8
  | .pla => 0x68#8
  | .plp => 0x28#8
  | .adcImm _ => 0x69#8 | .adcZp _ => 0x65#8 | .adcZpX _ => 0x75#8 | .adcAbs _ => 0x6D#8 | .adcAbsX _ => 0x7D#8
  | .adcAbsY _ => 0x79#8 | .adcIndX _ => 0x61#8 | .adcIndY _ => 0x71#8
  | .sbcImm _ => 0xE9#8 | .sbcZp _ => 0xE5#8 | .sbcZpX _ => 0xF5#8 | .sbcAbs _ => 0xED#8 | .sbcAbsX _ => 0xFD#8
  | .sbcAbsY _ => 0xF9#8 | .sbcIndX _ => 0xE1#8 | .sbcIndY _ => 0xF1#8
  | .andImm _ => 0x29#8 | .andZp _ => 0x25#8 | .andZpX _ => 0x35#8 | .andAbs _ => 0x2D#8 | .andAbsX _ => 0x3D#8
  | .andAbsY _ => 0x39#8 | .andIndX _ => 0x21#8 | .andIndY _ => 0x31#8
  | .oraImm _ => 0x09#8 | .oraZp _ => 0x05#8 | .oraZpX _ => 0x15#8 | .oraAbs _ => 0x0D#8 | .oraAbsX _ => 0x1D#8
  | .oraAbsY _ => 0x19#8 | .oraIndX _ => 0x01#8 | .oraIndY _ => 0x11#8
  | .eorImm _ => 0x49#8 | .eorZp _ => 0x45#8 | .eorZpX _ => 0x55#8 | .eorAbs _ => 0x4D#8 | .eorAbsX _ => 0x5D#8
  | .eorAbsY _ => 0x59#8 | .eorIndX _ => 0x41#8 | .eorIndY _ => 0x51#8
  | .cmpImm _ => 0xC9#8 | .cmpZp _ => 0xC5#8 | .cmpZpX _ => 0xD5#8 | .cmpAbs _ => 0xCD#8 | .cmpAbsX _ => 0xDD#8
  | .cmpAbsY _ => 0xD9#8 | .cmpIndX _ => 0xC1#8 | .cmpIndY _ => 0xD1#8
  | .cpxImm _ => 0xE0#8 | .cpxZp _ => 0xE4#8 | .cpxAbs _ => 0xEC#8
  | .cpyImm _ => 0xC0#8 | .cpyZp _ => 0xC4#8 | .cpyAbs _ => 0xCC#8
  | .bitZp _ => 0x24#8 | .bitAbs _ => 0x2C#8
  | .aslAcc => 0x0A#8 | .aslZp _ => 0x06#8 | .aslZpX _ => 0x16#8 | .aslAbs _ => 0x0E#8 | .aslAbsX _ => 0x1E#8
  | .lsrAcc => 0x4A#8 | .lsrZp _ => 0x46#8 | .lsrZpX _ => 0x56#8 | .lsrAbs _ => 0x4E#8 | .lsrAbsX _ => 0x5E#8
  | .rolAcc => 0x2A#8 | .rolZp _ => 0x26#8 | .rolZpX _ => 0x36#8 | .rolAbs _ => 0x2E#8 | .rolAbsX _ => 0x3E#8
  | .rorAcc => 0x6A#8 | .rorZp _ => 0x66#8 | .rorZpX _ => 0x76#8 | .rorAbs _ => 0x6E#8 | .rorAbsX _ => 0x7E#8
  | .incZp _ => 0xE6#8 | .incZpX _ => 0xF6#8 | .incAbs _ => 0xEE#8 | .incAbsX _ => 0xFE#8
  | .decZp _ => 0xC6#8 | .decZpX _ => 0xD6#8 | .decAbs _ => 0xCE#8 | .decAbsX _ => 0xDE#8
  | .inx => 0xE8#8
  | .iny => 0xC8#8
  | .dex => 0xCA#8
  | .dey => 0x88#8
  | .bpl _ => 0x10#8
  | .bmi _ => 0x30#8
  | .bvc _ => 0x50#8
  | .bvs _ => 0x70#8
  | .bcc _ => 0x90#8
  | .bcs _ => 0xB0#8
  | .bne _ => 0xD0#8
  | .beq _ => 0xF0#8
  | .jmpAbs _ => 0x4C#8 | .jmpInd _ => 0x6C#8
  | .jsr _ => 0x20#8
  | .rts => 0x60#8
  | .brk => 0x00#8
  | .rti => 0x40#8
  | .clc => 0x18#8
  | .sec => 0x38#8
  | .cli => 0x58#8
  | .sei => 0x78#8
  | .clv => 0xB8#8
  | .cld => 0xD8#8
  | .sed => 0xF8#8
  | .nop => 0xEA#8
  | .unknown op => op

/-- The operand bytes of an addressing mode, in the order they stand in memory (30_encoding R170, R174; 20_memory R91). -/
def operandBytes : Mode → List Byte
  | .implied | .accumulator => []
  | .immediate b | .zeroPage b | .zeroPageX b | .zeroPageY b | .indirectX b | .indirectY b | .relative b => [b]
  | .absolute a | .absoluteX a | .absoluteY a | .indirect a => [loByte a, hiByte a]

/-- The bytes of an instruction: the opcode, then the operand bytes, low byte first (30_encoding R170, R178). -/
def encode (i : Instr) : List Byte := i.opcode :: operandBytes i.mode

/-- `Cycles(opcode, operand, taken)` (30_encoding R203), from the base counts and penalty marks of the opcode map. -/
def cyclesOf (op : Byte) (crossed taken : Bool) : Nat :=
  (cellOf op).baseCycles +
  (match (cellOf op).penalty with
   | .fixed => 0
   | .readCross => if crossed then 1 else 0
   | .branch => (if taken then 1 else 0) + (if taken && crossed then 1 else 0))

/-- The bytes of an instruction whose bits, numbered as spec/opcode_table.json numbers them, are w: the first byte is bits
7 to 0; bits at and above nbits are 0, up to the longest instruction of three bytes (30_encoding R170). -/
def tableBytes (nbits w : Nat) : List Byte :=
  let v := w % 2 ^ nbits
  [BitVec.ofNat 8 v, BitVec.ofNat 8 (v / 256), BitVec.ofNat 8 (v / 65536)]

/-- The instruction the decoder reads from such bytes; none where it refuses. -/
def decodeTableWord (nbits w : Nat) : Option Instr :=
  match decode (tableBytes nbits w) with
  | .ok (i, _) => some i
  | .error _ => none

/-- The assembler's text of a mnemonic (30_encoding R178, R181). An illegal byte is written `.byte`. -/
def mnemonicText : Mnemonic → String
  | .lda => "LDA" | .ldx => "LDX" | .ldy => "LDY" | .sta => "STA" | .stx => "STX" | .sty => "STY" | .tax => "TAX" | .tay => "TAY"
  | .txa => "TXA" | .tya => "TYA" | .tsx => "TSX" | .txs => "TXS" | .pha => "PHA" | .php => "PHP" | .pla => "PLA" | .plp => "PLP"
  | .adc => "ADC" | .sbc => "SBC" | .and => "AND" | .ora => "ORA" | .eor => "EOR" | .cmp => "CMP" | .cpx => "CPX" | .cpy => "CPY"
  | .bit => "BIT" | .asl => "ASL" | .lsr => "LSR" | .rol => "ROL" | .ror => "ROR" | .inc => "INC" | .dec => "DEC" | .inx => "INX"
  | .iny => "INY" | .dex => "DEX" | .dey => "DEY" | .bpl => "BPL" | .bmi => "BMI" | .bvc => "BVC" | .bvs => "BVS" | .bcc => "BCC"
  | .bcs => "BCS" | .bne => "BNE" | .beq => "BEQ" | .jmp => "JMP" | .jsr => "JSR" | .rts => "RTS" | .brk => "BRK" | .rti => "RTI"
  | .clc => "CLC" | .sec => "SEC" | .cli => "CLI" | .sei => "SEI" | .clv => "CLV" | .cld => "CLD" | .sed => "SED" | .nop => "NOP"
  | .unknown => ".byte"

/-- A hexadecimal digit, capital letters (30_encoding R181). -/
def hexDigit (n : Nat) : Char := ("0123456789ABCDEF".toList).getD n '?'

/-- A byte in assembler text: `$` and two digits (30_encoding R181). -/
def byteText (b : Byte) : String := String.ofList ['$', hexDigit (b.toNat / 16), hexDigit (b.toNat % 16)]

/-- A word in assembler text: `$` and four digits (30_encoding R181). -/
def wordText (w : Word) : String :=
  String.ofList ['$', hexDigit (w.toNat / 4096), hexDigit (w.toNat / 256 % 16), hexDigit (w.toNat / 16 % 16),
    hexDigit (w.toNat % 16)]

/-- The operand part of the assembler's text (30_encoding R176, R181). A branch is written with its signed offset. -/
def modeText : Mode → String
  | .implied => ""
  | .accumulator => " A"
  | .immediate b => " #" ++ byteText b
  | .zeroPage z => " " ++ byteText z
  | .zeroPageX z => " " ++ byteText z ++ ",X"
  | .zeroPageY z => " " ++ byteText z ++ ",Y"
  | .absolute a => " " ++ wordText a
  | .absoluteX a => " " ++ wordText a ++ ",X"
  | .absoluteY a => " " ++ wordText a ++ ",Y"
  | .indirectX z => " (" ++ byteText z ++ ",X)"
  | .indirectY z => " (" ++ byteText z ++ "),Y"
  | .relative off => if off.toNat < 128 then " +" ++ toString off.toNat else " -" ++ toString (256 - off.toNat)
  | .indirect ptr => " (" ++ wordText ptr ++ ")"

/-- The assembler text of an instruction (30_encoding R176, R181). -/
def assemblyText (i : Instr) : String :=
  match i with
  | .unknown op => ".byte " ++ byteText op
  | i => mnemonicText i.mnemonic ++ modeText i.mode

end Sys2Proof
end

