-- ==== Sys2Proof/Machine/State.lean ====
section
/-! DEFINITION. The state of the block as plain data (10_state), the reasons a step can stop, and the state after
power-on. -/

namespace Sys2Proof.Machine

/-- A memory array: pairs of an offset and a byte, offsets strictly rising, no byte 0x00; an offset that is not listed
reads 0x00, the power-on value of every array (70 R381, R382; log entry 12). -/
abbrev Memory := List Host.Cell

/-- The name-table mirroring values (20_memory R86). -/
inductive Mirroring where
  | horizontal
  | vertical
  | singleScreenLower
  | singleScreenUpper
  deriving DecidableEq, Repr

/-- HEADER_MIRRORING, the two values a header can give (00_scope R13; 20_memory R153). -/
inductive HeaderMirroring where
  | horizontal
  | vertical
  deriving DecidableEq, Repr

/-- The mirroring value of a header (20_memory R86). -/
def HeaderMirroring.value : HeaderMirroring → Mirroring
  | .horizontal => .horizontal
  | .vertical => .vertical

/-- The four mapper variants (00_scope R4). -/
inductive MapperKind where
  | nrom
  | sxrom
  | unrom
  | cnrom
  deriving DecidableEq, Repr

/-- SxROM `prg_size` (20_memory R120). -/
inductive PrgSize where
  | k16
  | k32
  deriving DecidableEq, Repr

/-- SxROM `chr_mode` (20_memory R120). -/
inductive ChrMode where
  | k8
  | k4
  deriving DecidableEq, Repr

/-- The configuration parameters, fixed for the life of a machine (00_scope R13). -/
structure Cartridge where
  mapper : MapperKind
  prgBanks : Nat
  prgRom : Memory
  chrBanks : Nat
  chrRom : Memory
  headerMirroring : HeaderMirroring
  deriving DecidableEq, Repr

/-- The SxROM registers (20_memory R120). -/
structure Sxrom where
  prgSize : PrgSize
  chrMode : ChrMode
  slotSelect : Bool
  mirroring : Mirroring
  chrBank0 : BitVec 5
  chrBank1 : BitVec 5
  prgBank : BitVec 4
  shiftAccumulator : BitVec 5
  writeCount : BitVec 3
  deriving DecidableEq, Repr

/-- `halted`: running, or stopped at an unknown opcode (10_state R47). -/
inductive RunState where
  | running
  | halted (pc : Word) (opcode : Byte)
  deriving DecidableEq, Repr

/-- The two bus masters: the CPU and the DMA read port (20_memory R80, R82). -/
inductive Master where
  | cpu
  | dma
  deriving DecidableEq, Repr

/-- The two bus operations (20_memory R70). -/
inductive Access where
  | read
  | write
  deriving DecidableEq, Repr

/-- One bus transaction: who made it, what it was, its address and its byte (20_memory R81, R93). -/
structure BusEvent where
  master : Master
  access : Access
  addr : Word
  value : Byte
  deriving DecidableEq, Repr

/-- The flags of P by name (10_state R33). -/
inductive Flag where
  | c
  | z
  | i
  | d
  | b
  | u
  | v
  | n
  deriving DecidableEq, Repr

/-- The whole state of the block (10_state R30, R45 to R50). `sp` is S. `bus` (every transaction so far, newest first)
and `draws` (how many bytes the device ports have returned) are the model's own fields (log entries 2 and 3). -/
structure State where
  a : Byte
  x : Byte
  y : Byte
  sp : Byte
  p : Byte
  pc : Word
  nmiPending : Bool
  irqPending : Bool
  halted : RunState
  stepCycles : Nat
  ram : Memory
  prgRam : Memory
  chrRam : Memory
  sxrom : Sxrom
  unromPrgBank : BitVec 3
  cnromChrBank : BitVec 2
  cart : Cartridge
  bus : List BusEvent
  draws : Nat
  deriving DecidableEq, Repr

/-- Why a step stops. -/
inductive Fault where
  /-- Raised by the opcodes of 30_encoding R179 (60 R360): the offending PC, the opcode byte, and the state the machine is
  left in. Safe: the spec says that the machine halts there. -/
  | unknownOpcode (pc : Word) (opcode : Byte) (final : State)
  /-- Raised by a step or a reset request on a halted machine (60 R361; 70 R386). Safe: no move exists. -/
  | machineHalted (pc : Word) (opcode : Byte)
  deriving DecidableEq, Repr

/-- What the model refuses. -/
inductive Refusal where
  /-- An instruction without a meaning. No arm uses it: every instruction has its meaning. Safe. -/
  | notModelled (mnemonic : String)
  /-- Raised by loading a cartridge file whose first four bytes are not the magic (20_memory R150). Safe. -/
  | badMagic
  /-- Raised by loading a cartridge file that is too short (20_memory R155). Safe. -/
  | truncatedFile
  /-- Raised by loading a cartridge with a mapper number other than 0 to 3 (20_memory R157). Safe. -/
  | unsupportedMapper (number : Nat)
  /-- Raised by a cartridge with no PRG-ROM bank (20_memory R157). Safe. -/
  | noPrgRom
  /-- Raised by a CHR-port access outside 0x0000 to 0x1FFF (20_memory R85). Safe. -/
  | chrAddressOutOfRange (addr : Nat)
  deriving DecidableEq, Repr

/-- The cartridge of `State.reset`: NROM, one blank PRG-ROM bank, CHR-RAM, horizontal mirroring (DESIGN CHOICE, log entry 1). -/
def blankCartridge : Cartridge :=
  { mapper := .nrom, prgBanks := 1, prgRom := [], chrBanks := 0, chrRom := [], headerMirroring := .horizontal }

/-- The SxROM registers at power-on (20_memory R120; 70 R382). -/
def sxromPowerOn (headerMirroring : HeaderMirroring) : Sxrom :=
  { prgSize := .k16, chrMode := .k8, slotSelect := true, mirroring := headerMirroring.value, chrBank0 := 0#5,
    chrBank1 := 0#5, prgBank := 0#4, shiftAccumulator := 0#5, writeCount := 0#3 }

/-- The state after power-on with the blank cartridge (10_state R51; 70 R380, R401). PC is the word at the reset vector,
0x0000 in a blank ROM; `bus` holds the two vector reads of the construction reset (70 R383). -/
def State.reset : State :=
  { a := 0x00#8, x := 0x00#8, y := 0x00#8, sp := 0xFD#8, p := 0x2C#8, pc := 0x0000#16, nmiPending := false,
    irqPending := false, halted := .running, stepCycles := 0, ram := [], prgRam := [], chrRam := [],
    sxrom := sxromPowerOn .horizontal, unromPrgBank := 0#3, cnromChrBank := 0#2, cart := blankCartridge,
    bus := [⟨.cpu, .read, 0xFFFD#16, 0x00#8⟩, ⟨.cpu, .read, 0xFFFC#16, 0x00#8⟩], draws := 0 }

end Sys2Proof.Machine
end

