-- ==== Sys2Proof/Machine/Memory.lean ====
section
/-! DEFINITION. The named operations over one memory array (a Memory of Machine/State.lean): reading and writing one byte,
the canonical form, and the array of a list of bytes. -/

namespace Sys2Proof.Machine

/-- What an offset that is not listed reads as (70 R381, R382; log entry 12). -/
abbrev unlistedByte : Byte := 0x00#8

/-- The byte at an offset. -/
def Memory.read : Memory → Nat → Byte
  | [], _ => unlistedByte
  | (k, v) :: rest, i => if k = i then v else Memory.read rest i

/-- Listing a byte at an offset, or removing its entry when the byte is what an unlisted offset reads as. -/
def Memory.write : Memory → Nat → Byte → Memory
  | [], i, v => if v = unlistedByte then [] else [(i, v)]
  | (k, w) :: rest, i, v =>
    if i < k then (if v = unlistedByte then (k, w) :: rest else (i, v) :: (k, w) :: rest)
    else if i = k then (if v = unlistedByte then rest else (i, v) :: rest)
    else (k, w) :: Memory.write rest i v

/-- Every offset of the array is at least `lo`, offsets rise strictly, and no entry is an unlisted byte. -/
def Memory.sortedFrom : Nat → Memory → Bool
  | _, [] => true
  | lo, (k, v) :: rest => decide (lo ≤ k) && decide (v ≠ unlistedByte) && Memory.sortedFrom (k + 1) rest

/-- The canonical form: equal memories are equal lists. -/
def Memory.wf (m : Memory) : Bool := Memory.sortedFrom 0 m

/-- Every listed offset is below the size of the array (10_state R49). -/
def Memory.below (size : Nat) (m : Memory) : Bool := m.all (fun e => decide (e.1 < size))

/-- The array whose bytes from offset `base` on are the listed ones, in canonical form by construction. -/
def Memory.ofBytesFrom : Nat → List Byte → Memory
  | _, [] => []
  | base, b :: rest =>
    if b = unlistedByte then Memory.ofBytesFrom (base + 1) rest else (base, b) :: Memory.ofBytesFrom (base + 1) rest

/-- The array of a list of bytes from offset 0 on. -/
def Memory.ofBytes (bytes : List Byte) : Memory := Memory.ofBytesFrom 0 bytes

end Sys2Proof.Machine
end

