-- ==== Sys2Proof/Machine/Flags.lean ====
section
/-! DEFINITION. The flags of P (10_state R33 to R39) and every flag computation of the instruction set: the adder, the
compare law, the shifts and rotates, BIT, and the bytes pushed for P and restored from a pulled byte. -/

namespace Sys2Proof.Machine

/-- The position of a flag in P (10_state R33). -/
def flagBit : Flag → Nat
  | .c => 0
  | .z => 1
  | .i => 2
  | .d => 3
  | .b => 4
  | .u => 5
  | .v => 6
  | .n => 7

/-- The value of a flag in a status byte. -/
def getFlag (f : Flag) (p : Byte) : Bool := p.getLsbD (flagBit f)

/-- A status byte with one flag given a value, its other bits kept. -/
def setFlag (f : Flag) (v : Bool) (p : Byte) : Byte :=
  if v then p ||| (1#8 <<< flagBit f) else p &&& ~~~(1#8 <<< flagBit f)

/-- A flag of P (10_state R33). -/
def State.flag (s : State) (f : Flag) : Bool := getFlag f s.p

/-- A flag of P written, nothing else changed. -/
def State.withFlag (f : Flag) (v : Bool) (s : State) : State := { s with p := setFlag f v s.p }

/-- `SetNZ(v)` on a status byte (00_scope, notation). -/
def setNZ (v p : Byte) : Byte := setFlag .n (v.getLsbD 7) (setFlag .z (v == 0#8) p)

/-- `PushedP(brk)` (10_state R39). -/
def pushedP (brk : Bool) (p : Byte) : Byte := (p &&& 0xCF#8) ||| 0x20#8 ||| (if brk then 0x10#8 else 0x00#8)

/-- `RestoreP(v)` (10_state R39): B forced 0, bit 5 forced 1. -/
def restoreP (v : Byte) : Byte := (v &&& 0xCF#8) ||| 0x20#8

/-- The result of the adder: the byte, the carry and the signed overflow (43_arithmetic R250). -/
structure AddResult where
  result : Byte
  carry : Bool
  overflow : Bool
  deriving DecidableEq, Repr

/-- `Add8(a, m, c)` (43_arithmetic R250): binary whatever the Decimal flag holds (00_scope R3). -/
def add8 (a m : Byte) (c : Bool) : AddResult :=
  let sum := a.toNat + m.toNat + c.toNat
  let result := BitVec.ofNat 8 sum
  { result := result
    carry := decide (sum > 0xFF)
    overflow := ((a ^^^ result) &&& (m ^^^ result) &&& 0x80#8) != 0#8 }

/-- The flags ADC and SBC write from the adder's result: C, V, Z, N (43_arithmetic R251, R252). -/
def addFlags (r : AddResult) (p : Byte) : Byte :=
  setNZ r.result (setFlag .v r.overflow (setFlag .c r.carry p))

/-- `Compare(r, m)` (45_compare_bit R270): C, Z and N; V is kept. -/
def compareFlags (r m p : Byte) : Byte :=
  setFlag .n ((r - m).getLsbD 7) (setFlag .z (r == m) (setFlag .c (decide (m.toNat ≤ r.toNat)) p))

/-- The flags BIT writes: Z from A and M, N and V from M alone (45_compare_bit R274). -/
def bitFlags (a m p : Byte) : Byte :=
  setFlag .v (m.getLsbD 6) (setFlag .n (m.getLsbD 7) (setFlag .z ((a &&& m) == 0#8) p))

/-- The result of a shift or rotate: the byte and the bit shifted out (46_shift_rotate). -/
structure ShiftResult where
  result : Byte
  carry : Bool
  deriving DecidableEq, Repr

/-- ASL (46_shift_rotate R281). The carry-in is not read. -/
def shiftAsl (v : Byte) (_carryIn : Bool) : ShiftResult := { result := v <<< 1, carry := v.getLsbD 7 }

/-- LSR (46_shift_rotate R282). The carry-in is not read. -/
def shiftLsr (v : Byte) (_carryIn : Bool) : ShiftResult := { result := v >>> 1, carry := v.getLsbD 0 }

/-- ROL (46_shift_rotate R283). -/
def shiftRol (v : Byte) (carryIn : Bool) : ShiftResult :=
  { result := (v <<< 1) ||| (if carryIn then 0x01#8 else 0x00#8), carry := v.getLsbD 7 }

/-- ROR (46_shift_rotate R284). -/
def shiftRor (v : Byte) (carryIn : Bool) : ShiftResult :=
  { result := (v >>> 1) ||| (if carryIn then 0x80#8 else 0x00#8), carry := v.getLsbD 0 }

/-- The flags a shift or rotate writes: C, Z and N (46_shift_rotate R280). -/
def shiftFlags (r : ShiftResult) (p : Byte) : Byte := setNZ r.result (setFlag .c r.carry p)

end Sys2Proof.Machine
end

