-- ==== Sys2Proof/Machine/Mapper.lean ====
section
/-! DEFINITION. The cartridge mappers, the block's address-translation engine (20_memory section 7): program-side loads and
stores, pattern-side loads and stores, and the mirroring output. -/

namespace Sys2Proof.Machine

/-- `RomAt(vec, i)`: an index taken modulo the vector's length (20_memory R112). -/
def romAt (rom : Memory) (len i : Nat) : Byte := rom.read (i % len)

/-- The length of the PRG-ROM vector in bytes (00_scope R13). -/
def prgRomSize (c : Cartridge) : Nat := c.prgBanks * Config.prgBankSize

/-- The length of the CHR-ROM vector in bytes (00_scope R13). -/
def chrRomSize (c : Cartridge) : Nat := c.chrBanks * Config.chrBankSize

/-- The offset of a CPU address in PRG-RAM (20_memory R111). -/
def prgRamOffset (a : Word) : Nat := (a &&& 0x1FFF#16).toNat

/-- The offset of a CPU address in its 16 KiB slot (20_memory R129, R130, R142, R143). -/
def slotOffset (a : Word) : Nat := (a &&& 0x3FFF#16).toNat

/-- NROM: the PRG-ROM index of an address at or above 0x8000 (20_memory R115). -/
def nromPrgIndex (prgBanks : Nat) (a : Word) : Nat :=
  if prgBanks = 1 then slotOffset a else (a &&& 0x7FFF#16).toNat

/-- SxROM: the PRG-ROM index of an address at or above 0x8000 (20_memory R128, R129, R130). -/
def sxromPrgIndex (r : Sxrom) (prgBanks : Nat) (a : Word) : Nat :=
  match r.prgSize with
  | .k32 => (r.prgBank >>> 1).toNat * 0x8000 + (a &&& 0x7FFF#16).toNat
  | .k16 =>
    if a < 0xC000#16 then (if r.slotSelect then r.prgBank.toNat else 0) * 0x4000 + slotOffset a
    else (if r.slotSelect then prgBanks - 1 else r.prgBank.toNat) * 0x4000 + slotOffset a

/-- UNROM: the PRG-ROM index of an address at or above 0x8000; the fixed window begins at 0xC000 itself (20_memory R142,
R143; 90_conflicts C4). -/
def unromPrgIndex (prgBank : BitVec 3) (prgBanks : Nat) (a : Word) : Nat :=
  (if a < 0xC000#16 then prgBank.toNat else prgBanks - 1) * 0x4000 + slotOffset a

/-- The PRG-ROM index of an address at or above 0x8000, before the modulo of R112 (20_memory section 7). CNROM has NROM's
(R148). -/
def prgIndex (a : Word) (s : State) : Nat :=
  match s.cart.mapper with
  | .nrom => nromPrgIndex s.cart.prgBanks a
  | .sxrom => sxromPrgIndex s.sxrom s.cart.prgBanks a
  | .unrom => unromPrgIndex s.unromPrgBank s.cart.prgBanks a
  | .cnrom => nromPrgIndex s.cart.prgBanks a

/-- `prg_load(a)` for a CPU address in 0x6000 to 0xFFFF (20_memory R110, R111, R115, R128 to R130, R142, R143, R148). -/
def prgLoad (a : Word) (s : State) : Byte :=
  if a < 0x8000#16 then s.prgRam.read (prgRamOffset a) else romAt s.cart.prgRom (prgRomSize s.cart) (prgIndex a s)

/-- The mirroring value of a Control register's bits 1..0 (20_memory R124). -/
def controlMirroring (r : BitVec 5) : Mirroring :=
  if r.getLsbD 1 then (if r.getLsbD 0 then .horizontal else .vertical)
  else (if r.getLsbD 0 then .singleScreenUpper else .singleScreenLower)

/-- SxROM `Control(r)` (20_memory R124). -/
def sxromControl (r : BitVec 5) (g : Sxrom) : Sxrom :=
  { g with
    mirroring := controlMirroring r
    slotSelect := r.getLsbD 2
    prgSize := if r.getLsbD 3 then .k16 else .k32
    chrMode := if r.getLsbD 4 then .k4 else .k8 }

/-- SxROM `Commit(a, r)`: the register is chosen by the address of the fifth write (20_memory R123, R125 to R127). -/
def sxromCommit (a : Word) (r : BitVec 5) (g : Sxrom) : Sxrom :=
  if a < 0xA000#16 then sxromControl r g
  else if a < 0xC000#16 then { g with chrBank0 := r }
  else if a < 0xE000#16 then { g with chrBank1 := r }
  else { g with prgBank := r.setWidth 4 }

/-- SxROM write at an address at or above 0x8000: the reset form (20_memory R121) or the serial form (R122). -/
def sxromWrite (a : Word) (v : Byte) (g : Sxrom) : Sxrom :=
  if v.getLsbD 7 then
    { g with shiftAccumulator := 0#5, writeCount := 0#3, prgSize := .k16, slotSelect := true }
  else
    let acc := g.shiftAccumulator ||| ((v.setWidth 5 &&& 1#5) <<< g.writeCount.toNat)
    let count := g.writeCount.toNat + 1
    if count = 5 then { sxromCommit a acc g with shiftAccumulator := 0#5, writeCount := 0#3 }
    else { g with shiftAccumulator := acc, writeCount := BitVec.ofNat 3 count }

/-- `prg_store(a, v)` for a CPU address in 0x6000 to 0xFFFF (20_memory R110, R111, R116, R121 to R127, R134, R141, R146).
PRG-ROM never changes. -/
def prgStore (a : Word) (v : Byte) (s : State) : State :=
  if a < 0x8000#16 then { s with prgRam := s.prgRam.write (prgRamOffset a) v }
  else
    match s.cart.mapper with
    | .nrom => s
    | .sxrom => { s with sxrom := sxromWrite a v s.sxrom }
    | .unrom => { s with unromPrgBank := v.setWidth 3 }
    | .cnrom => { s with cnromChrBank := v.setWidth 2 }

/-- `SxChrIndex(a)` for a pattern address (20_memory R131, R132). -/
def sxromChrIndex (r : Sxrom) (a : Nat) : Nat :=
  match r.chrMode with
  | .k4 => (if a < 0x1000 then r.chrBank0.toNat else r.chrBank1.toNat) * 0x1000 + a % 0x1000
  | .k8 => (r.chrBank0 >>> 1).toNat * 0x2000 + a

/-- The translated index of a pattern address (20_memory R117, R131 to R133, R144, R147). -/
def chrIndex (a : Nat) (s : State) : Nat :=
  match s.cart.mapper with
  | .nrom => a
  | .sxrom => sxromChrIndex s.sxrom a
  | .unrom => a
  | .cnrom => s.cnromChrBank.toNat * 0x2000 + a

/-- `ChrRead(i)` (20_memory R113). -/
def chrRead (i : Nat) (s : State) : Byte :=
  if s.cart.chrBanks = 0 then s.chrRam.read (i % Config.chrRamSize) else romAt s.cart.chrRom (chrRomSize s.cart) i

/-- `ChrWrite(i, v)`: discarded when CHR-ROM is present (20_memory R113; 90_conflicts C2). -/
def chrWrite (i : Nat) (v : Byte) (s : State) : State :=
  if s.cart.chrBanks = 0 then { s with chrRam := s.chrRam.write (i % Config.chrRamSize) v } else s

/-- `chr_load(a)` of the CHR port; an address outside 0x0000 to 0x1FFF is refused (20_memory R85; 92 D37). -/
def chrLoad (a : Nat) (s : State) : Except Refusal Byte :=
  if a < 0x2000 then .ok (chrRead (chrIndex a s) s) else .error (.chrAddressOutOfRange a)

/-- `chr_store(a, v)` of the CHR port (20_memory R85). -/
def chrStore (a : Nat) (v : Byte) (s : State) : Except Refusal State :=
  if a < 0x2000 then .ok (chrWrite (chrIndex a s) v s) else .error (.chrAddressOutOfRange a)

/-- The mirroring output (20_memory R86, R118, R144, R148; 92 D38). -/
def mirroringOutput (s : State) : Mirroring :=
  match s.cart.mapper with
  | .nrom => s.cart.headerMirroring.value
  | .sxrom => s.sxrom.mirroring
  | .unrom => s.cart.headerMirroring.value
  | .cnrom => s.cart.headerMirroring.value

end Sys2Proof.Machine
end

