-- ==== Sys2Proof/Machine/Ops.lean ====
section
/-! DEFINITION. The named operations over the bus, the stack and the program counter: bus decode (20_memory R72, R73),
OAM-DMA (R82), words (R106, R107), push and pull (10_state R40, R41), instruction fetch (30_encoding R171), taking an
exception and returning from one (49 R320, R321; 60 R347), and the CPU reset (70 R383). -/

namespace Sys2Proof.Machine

/-- What a CPU address decodes to (20_memory R72, R73, R101). -/
inductive Target where
  | ram
  | ppu
  | apu
  | input
  | unmapped
  | cartridge
  deriving DecidableEq, Repr

/-- The address decode of a bus transaction, the same for reads and writes (20_memory R72, R73; 90_conflicts C7). -/
def route (a : Word) : Target :=
  if a ≤ 0x1FFF#16 then .ram
  else if a ≤ 0x3FFF#16 then .ppu
  else if a = 0x4014#16 then .ppu
  else if a ≤ 0x4015#16 then .apu
  else if a ≤ 0x401F#16 then .input
  else if a ≤ 0x5FFF#16 then .unmapped
  else .cartridge

/-- Whether an address goes to an external device port (20_memory R80, R99). -/
def isPort (a : Word) : Bool :=
  match route a with
  | .ppu => true
  | .apu => true
  | .input => true
  | .ram => false
  | .unmapped => false
  | .cartridge => false

/-- The offset of an address in system RAM: 2 KiB, four times (20_memory R75). -/
def ramOffset (a : Word) : Nat := (a &&& 0x07FF#16).toNat

/-- The byte a bus read of an address returns: a draw for a device port (20_memory R72, R74, R75, R81, R84). -/
def readValue (a : Word) (s : State) : Byte :=
  match route a with
  | .ram => s.ram.read (ramOffset a)
  | .ppu => Config.portByte s.draws
  | .apu => Config.portByte s.draws
  | .input => Config.portByte s.draws
  | .unmapped => 0x00#8
  | .cartridge => prgLoad a s

/-- One bus read: the byte, and the state with the transaction recorded and, for a device port, the draw used up
(20_memory R72, R81, R93). -/
def busRead (m : Master) (a : Word) (s : State) : Byte × State :=
  (readValue a s,
   { s with
     bus := ⟨m, .read, a, readValue a s⟩ :: s.bus
     draws := if isPort a then s.draws + 1 else s.draws })

/-- The first n DMA reads of a page, at offsets 0x00 on in increasing order (20_memory R82). -/
def dmaReads (page : Byte) : Nat → State → State
  | 0, s => s
  | n + 1, s => (busRead .dma (mkWord page (BitVec.ofNat 8 n)) (dmaReads page n s)).2

/-- What a bus write does at its target. A store to a device port is an event and, at 0x4014, the cause of the 256 DMA
reads (20_memory R73 to R79, R82, R84). -/
def storeAt (a : Word) (v : Byte) (s : State) : State :=
  match route a with
  | .ram => { s with ram := s.ram.write (ramOffset a) v }
  | .ppu => if a = 0x4014#16 then dmaReads v 256 s else s
  | .apu => s
  | .input => s
  | .unmapped => s
  | .cartridge => prgStore a v s

/-- One bus write by the CPU: the transaction recorded, then its effect (20_memory R73, R81, R93). -/
def busWrite (a : Word) (v : Byte) (s : State) : State :=
  storeAt a v { s with bus := ⟨.cpu, .write, a, v⟩ :: s.bus }

/-- `ReadWord(a)`: low byte first, the second address wrapping at 0xFFFF (20_memory R96, R106). -/
def readWord (a : Word) (s : State) : Word × State :=
  let lo := busRead .cpu a s
  let hi := busRead .cpu (a + 1#16) lo.2
  (mkWord hi.1 lo.1, hi.2)

/-- `ZpWord(z)`: low byte first, the second address wrapping in page 0 (20_memory R107). -/
def zpWord (z : Byte) (s : State) : Word × State :=
  let lo := busRead .cpu (zext16 z) s
  let hi := busRead .cpu (zext16 (z + 1#8)) lo.2
  (mkWord hi.1 lo.1, hi.2)

/-- The word a JMP Indirect pointer names: the second byte comes from the same page (30_encoding R198). -/
def pointerWord (ptr : Word) (s : State) : Word × State :=
  let lo := busRead .cpu ptr s
  let hi := busRead .cpu (mkWord (hiByte ptr) (loByte ptr + 1#8)) lo.2
  (mkWord hi.1 lo.1, hi.2)

/-- The address S points to, in the stack page (10_state R40, R41; 20_memory R103). -/
def stackAddress (sp : Byte) : Word := mkWord 0x01#8 sp

/-- `Push(v)`: write, then decrement S (10_state R40). -/
def push (v : Byte) (s : State) : State :=
  let s1 := busWrite (stackAddress s.sp) v s
  { s1 with sp := s.sp - 1#8 }

/-- `Pull()`: increment S, then read (10_state R41). -/
def pull (s : State) : Byte × State :=
  busRead .cpu (stackAddress (s.sp + 1#8)) { s with sp := s.sp + 1#8 }

/-- A word pushed high byte first (20_memory R92). -/
def pushWord (w : Word) (s : State) : State := push (loByte w) (push (hiByte w) s)

/-- A word pulled low byte first (48 R312; 49 R321). -/
def pullWord (s : State) : Word × State :=
  let lo := pull s
  let hi := pull lo.2
  (mkWord hi.1 lo.1, hi.2)

/-- TAKING AN EXCEPTION, the one shared operation: the return address pushed high byte first, P pushed with B as given and
bit 5 set, I set, PC loaded from the vector. NMI and IRQ entry use B = 0 (60 R347), BRK B = 1 (49 R320). -/
def takeException (vector ret : Word) (brk : Bool) (s : State) : State :=
  let s1 := push (pushedP brk s.p) (pushWord ret s)
  let v := readWord vector (s1.withFlag .i true)
  { v.2 with pc := v.1 }

/-- THE RETURN FROM AN EXCEPTION: P restored with B forced 0 and bit 5 forced 1, then PC (49 R321; 60 R351). -/
def returnFromException (s : State) : State :=
  let p := pull s
  let w := pullWord { p.2 with p := restoreP p.1 }
  { w.2 with pc := w.1 }

/-- `Entry(vector)` of an interrupt: 7 cycles (60 R347). -/
def interruptEntry (vector : Word) (s : State) : State :=
  { takeException vector s.pc false s with stepCycles := 7 }

/-- NMI entry (60 R348). -/
def nmiEntry (s : State) : State := { interruptEntry Config.nmiVector s with nmiPending := false }

/-- IRQ entry (60 R349). -/
def irqEntry (s : State) : State := { interruptEntry Config.irqVector s with irqPending := false }

/-- `Fetch()` (30_encoding R171). -/
def fetchByte (s : State) : Byte × State :=
  let b := busRead .cpu s.pc s
  (b.1, { b.2 with pc := s.pc + 1#16 })

/-- n fetches in a row: the bytes in the order they are read (30_encoding R171, R174). -/
def fetchBytes : Nat → State → List Byte × State
  | 0, s => ([], s)
  | n + 1, s =>
    let b := fetchByte s
    let r := fetchBytes n b.2
    (b.1 :: r.1, r.2)

/-- Fetching one instruction: the opcode, then the operand bytes its cell asks for, and no other byte (30_encoding R171,
R172, R179). -/
def fetchInstr (s : State) : Instr × State :=
  let op := fetchByte s
  let r := fetchBytes (operandCount (cellOf op.1)) op.2
  (assemble op.1 (r.1.getD 0 0#8) (r.1.getD 1 0#8), r.2)

/-- The step's cycle count recorded (30_encoding R203; 60 R372). -/
def retire (op : Byte) (crossed taken : Bool) (s : State) : State := { s with stepCycles := cyclesOf op crossed taken }

/-- The CPU reset's effect on a running machine (70 R383, R385 to R387). -/
def resetSequence (s : State) : State :=
  let v := readWord Config.resetVector ({ s with sp := 0xFD#8 }.withFlag .i true)
  { v.2 with pc := v.1, nmiPending := false, irqPending := false }

/-- The machine as constructed, before the construction reset (10_state R30; 70 R380 to R382). -/
def constructed (c : Cartridge) : State :=
  { a := 0x00#8, x := 0x00#8, y := 0x00#8, sp := 0xFD#8, p := 0x28#8, pc := 0x0000#16, nmiPending := false,
    irqPending := false, halted := .running, stepCycles := 0, ram := [], prgRam := [], chrRam := [],
    sxrom := sxromPowerOn c.headerMirroring, unromPrgBank := 0#3, cnromChrBank := 0#2, cart := c, bus := [], draws := 0 }

/-- Power-on with a cartridge (70 R380): construction, then the CPU reset; no machine without PRG-ROM (20_memory R157). -/
def powerOn (c : Cartridge) : Except Refusal State :=
  if c.prgBanks = 0 then .error .noPrgRom else .ok (resetSequence (constructed c))

end Sys2Proof.Machine
end

