-- ==== Sys2Proof/Machine/Operands.lean ====
section
/-! DEFINITION. Resolving an addressing mode and the operand accessor (30_encoding R185 to R199), and the shapes that the
instruction meanings share: read an operand, store a register, read-modify-write, implied, branch. -/

namespace Sys2Proof.Machine

/-- The operand an addressing mode resolves to (30_encoding R185). -/
inductive Operand where
  | none
  | acc
  | imm (b : Byte)
  | mem (ea : Word) (crossed : Bool)
  | target (t : Word) (crossed : Bool)
  deriving DecidableEq, Repr

/-- Whether two addresses lie on different pages (30_encoding R199). -/
def pageCross (base r : Word) : Bool := hiByte base != hiByte r

/-- `Resolve(mode)`, after the operand bytes are fetched: the operand, and the state after the pointer reads the mode makes
(30_encoding R186 to R198). The pc of the state is the address of the next instruction. -/
def resolve (m : Mode) (s : State) : Operand × State :=
  match m with
  | .implied => (.none, s)
  | .accumulator => (.acc, s)
  | .immediate b => (.imm b, s)
  | .zeroPage z => (.mem (zext16 z) false, s)
  | .zeroPageX z => (.mem (zext16 (z + s.x)) false, s)
  | .zeroPageY z => (.mem (zext16 (z + s.y)) false, s)
  | .absolute a => (.mem a false, s)
  | .absoluteX a => (.mem (a + zext16 s.x) (pageCross a (a + zext16 s.x)), s)
  | .absoluteY a => (.mem (a + zext16 s.y) (pageCross a (a + zext16 s.y)), s)
  | .indirectX z =>
    let w := zpWord (z + s.x) s
    (.mem w.1 false, w.2)
  | .indirectY z =>
    let w := zpWord z s
    (.mem (w.1 + zext16 s.y) (pageCross w.1 (w.1 + zext16 s.y)), w.2)
  | .relative off => (.target (s.pc + sext16 off) (pageCross s.pc (s.pc + sext16 off)), s)
  | .indirect ptr =>
    let w := pointerWord ptr s
    (.target w.1 false, w.2)

/-- `operand.crossed` (30_encoding R185, R199). -/
def Operand.crossed : Operand → Bool
  | .mem _ c => c
  | .target _ c => c
  | .none => false
  | .acc => false
  | .imm _ => false

/-- The address an operand stands for: the effective address, or the target of a control transfer. The Absolute operand of
JMP and JSR is its address taken as the target (30_encoding R192). Other operands have no address and are never asked. -/
def Operand.address : Operand → Word
  | .mem ea _ => ea
  | .target t _ => t
  | .none => 0#16
  | .acc => 0#16
  | .imm _ => 0#16

/-- `load(operand)` (30_encoding R185): one bus read for memory, none otherwise. No instruction loads from `none` or a target
(log entry 14). -/
def load (o : Operand) (s : State) : Byte × State :=
  match o with
  | .acc => (s.a, s)
  | .imm b => (b, s)
  | .mem ea _ => busRead .cpu ea s
  | .none => (0#8, s)
  | .target _ _ => (0#8, s)

/-- `store(operand, v)` (30_encoding R185): one bus write for memory; a no-op on an immediate. -/
def store (o : Operand) (v : Byte) (s : State) : State :=
  match o with
  | .acc => { s with a := v }
  | .imm _ => s
  | .mem ea _ => busWrite ea v s
  | .none => s
  | .target _ _ => s

/-- The shape of an instruction that loads its operand and then updates registers and flags from the byte. -/
def readOp (f : Byte → State → State) (op : Byte) (m : Mode) (s : State) : State :=
  let o := resolve m s
  let v := load o.1 o.2
  retire op o.1.crossed false (f v.1 v.2)

/-- The shape of a store: one bus write of a register at the effective address, no read of it (40 R223; 20_memory R98). -/
def storeOp (g : State → Byte) (op : Byte) (m : Mode) (s : State) : State :=
  let o := resolve m s
  retire op o.1.crossed false (store o.1 (g o.2) o.2)

/-- The shape of a read-modify-write: one load, one store of the result to the same operand, then the flags
(46 R280; 47). `f` gives the result from the byte and the carry flag, `g` the new status byte from both bytes. -/
def modifyOp (f : Byte → Bool → Byte) (g : Byte → Byte → Byte) (op : Byte) (m : Mode) (s : State) : State :=
  let o := resolve m s
  let v := load o.1 o.2
  let t := store o.1 (f v.1 (s.flag .c)) v.2
  retire op o.1.crossed false { t with p := g v.1 s.p }

/-- The shape of an instruction without operand (30_encoding R186). -/
def impliedOp (f : State → State) (op : Byte) (m : Mode) (s : State) : State :=
  retire op (resolve m s).1.crossed false (f (resolve m s).2)

/-- The conditional branch on a flag having a value (48_control_transfer R300). -/
def branchOp (f : Flag) (want : Bool) (op : Byte) (m : Mode) (s : State) : State :=
  let o := resolve m s
  let taken := s.flag f == want
  retire op o.1.crossed taken (if taken then { o.2 with pc := o.1.address } else o.2)

end Sys2Proof.Machine
end

