-- ==== Sys2Proof/Machine/Arithmetic.lean ====
section
/-! DEFINITION. ADC and SBC (43_arithmetic). -/

namespace Sys2Proof.Machine

/-- ADC (43_arithmetic R251). -/
def adcOp : Byte → Mode → State → State :=
  readOp fun m s =>
    let r := add8 s.a m (s.flag .c)
    { s with a := r.result, p := addFlags r s.p }

/-- SBC: the operand complemented, the carry an inverted borrow (43_arithmetic R252). -/
def sbcOp : Byte → Mode → State → State :=
  readOp fun m s =>
    let r := add8 s.a (m ^^^ 0xFF#8) (s.flag .c)
    { s with a := r.result, p := addFlags r s.p }

/-- ADC Immediate, opcode 0x69 (43_arithmetic R251). -/
def execAdcImm (b : Byte) (s : State) : Host.Outcome State Fault Refusal :=
  .next (adcOp 0x69#8 (.immediate b) s)

/-- ADC ZeroPage, opcode 0x65 (43_arithmetic R251). -/
def execAdcZp (z : Byte) (s : State) : Host.Outcome State Fault Refusal :=
  .next (adcOp 0x65#8 (.zeroPage z) s)

/-- ADC ZeroPage,X, opcode 0x75 (43_arithmetic R251). -/
def execAdcZpX (z : Byte) (s : State) : Host.Outcome State Fault Refusal :=
  .next (adcOp 0x75#8 (.zeroPageX z) s)

/-- ADC Absolute, opcode 0x6D (43_arithmetic R251). -/
def execAdcAbs (a : Word) (s : State) : Host.Outcome State Fault Refusal :=
  .next (adcOp 0x6D#8 (.absolute a) s)

/-- ADC Absolute,X, opcode 0x7D (43_arithmetic R251). -/
def execAdcAbsX (a : Word) (s : State) : Host.Outcome State Fault Refusal :=
  .next (adcOp 0x7D#8 (.absoluteX a) s)

/-- ADC Absolute,Y, opcode 0x79 (43_arithmetic R251). -/
def execAdcAbsY (a : Word) (s : State) : Host.Outcome State Fault Refusal :=
  .next (adcOp 0x79#8 (.absoluteY a) s)

/-- ADC (Indirect,X), opcode 0x61 (43_arithmetic R251). -/
def execAdcIndX (z : Byte) (s : State) : Host.Outcome State Fault Refusal :=
  .next (adcOp 0x61#8 (.indirectX z) s)

/-- ADC (Indirect),Y, opcode 0x71 (43_arithmetic R251). -/
def execAdcIndY (z : Byte) (s : State) : Host.Outcome State Fault Refusal :=
  .next (adcOp 0x71#8 (.indirectY z) s)

/-- SBC Immediate, opcode 0xE9 (43_arithmetic R252). -/
def execSbcImm (b : Byte) (s : State) : Host.Outcome State Fault Refusal :=
  .next (sbcOp 0xE9#8 (.immediate b) s)

/-- SBC ZeroPage, opcode 0xE5 (43_arithmetic R252). -/
def execSbcZp (z : Byte) (s : State) : Host.Outcome State Fault Refusal :=
  .next (sbcOp 0xE5#8 (.zeroPage z) s)

/-- SBC ZeroPage,X, opcode 0xF5 (43_arithmetic R252). -/
def execSbcZpX (z : Byte) (s : State) : Host.Outcome State Fault Refusal :=
  .next (sbcOp 0xF5#8 (.zeroPageX z) s)

/-- SBC Absolute, opcode 0xED (43_arithmetic R252). -/
def execSbcAbs (a : Word) (s : State) : Host.Outcome State Fault Refusal :=
  .next (sbcOp 0xED#8 (.absolute a) s)

/-- SBC Absolute,X, opcode 0xFD (43_arithmetic R252). -/
def execSbcAbsX (a : Word) (s : State) : Host.Outcome State Fault Refusal :=
  .next (sbcOp 0xFD#8 (.absoluteX a) s)

/-- SBC Absolute,Y, opcode 0xF9 (43_arithmetic R252). -/
def execSbcAbsY (a : Word) (s : State) : Host.Outcome State Fault Refusal :=
  .next (sbcOp 0xF9#8 (.absoluteY a) s)

/-- SBC (Indirect,X), opcode 0xE1 (43_arithmetic R252). -/
def execSbcIndX (z : Byte) (s : State) : Host.Outcome State Fault Refusal :=
  .next (sbcOp 0xE1#8 (.indirectX z) s)

/-- SBC (Indirect),Y, opcode 0xF1 (43_arithmetic R252). -/
def execSbcIndY (z : Byte) (s : State) : Host.Outcome State Fault Refusal :=
  .next (sbcOp 0xF1#8 (.indirectY z) s)

end Sys2Proof.Machine
end

