-- ==== Sys2Proof/Machine/CompareBit.lean ====
section
/-! DEFINITION. Compares and bit test (45_compare_bit). -/

namespace Sys2Proof.Machine

/-- CMP (45_compare_bit R271). -/
def cmpOp : Byte → Mode → State → State :=
  readOp fun m s => { s with p := compareFlags s.a m s.p }

/-- CPX (45_compare_bit R272). -/
def cpxOp : Byte → Mode → State → State :=
  readOp fun m s => { s with p := compareFlags s.x m s.p }

/-- CPY (45_compare_bit R273). -/
def cpyOp : Byte → Mode → State → State :=
  readOp fun m s => { s with p := compareFlags s.y m s.p }

/-- BIT (45_compare_bit R274). -/
def bitOp : Byte → Mode → State → State :=
  readOp fun m s => { s with p := bitFlags s.a m s.p }

/-- CMP Immediate, opcode 0xC9 (45_compare_bit R271). -/
def execCmpImm (b : Byte) (s : State) : Host.Outcome State Fault Refusal :=
  .next (cmpOp 0xC9#8 (.immediate b) s)

/-- CMP ZeroPage, opcode 0xC5 (45_compare_bit R271). -/
def execCmpZp (z : Byte) (s : State) : Host.Outcome State Fault Refusal :=
  .next (cmpOp 0xC5#8 (.zeroPage z) s)

/-- CMP ZeroPage,X, opcode 0xD5 (45_compare_bit R271). -/
def execCmpZpX (z : Byte) (s : State) : Host.Outcome State Fault Refusal :=
  .next (cmpOp 0xD5#8 (.zeroPageX z) s)

/-- CMP Absolute, opcode 0xCD (45_compare_bit R271). -/
def execCmpAbs (a : Word) (s : State) : Host.Outcome State Fault Refusal :=
  .next (cmpOp 0xCD#8 (.absolute a) s)

/-- CMP Absolute,X, opcode 0xDD (45_compare_bit R271). -/
def execCmpAbsX (a : Word) (s : State) : Host.Outcome State Fault Refusal :=
  .next (cmpOp 0xDD#8 (.absoluteX a) s)

/-- CMP Absolute,Y, opcode 0xD9 (45_compare_bit R271). -/
def execCmpAbsY (a : Word) (s : State) : Host.Outcome State Fault Refusal :=
  .next (cmpOp 0xD9#8 (.absoluteY a) s)

/-- CMP (Indirect,X), opcode 0xC1 (45_compare_bit R271). -/
def execCmpIndX (z : Byte) (s : State) : Host.Outcome State Fault Refusal :=
  .next (cmpOp 0xC1#8 (.indirectX z) s)

/-- CMP (Indirect),Y, opcode 0xD1 (45_compare_bit R271). -/
def execCmpIndY (z : Byte) (s : State) : Host.Outcome State Fault Refusal :=
  .next (cmpOp 0xD1#8 (.indirectY z) s)

/-- CPX Immediate, opcode 0xE0 (45_compare_bit R272). -/
def execCpxImm (b : Byte) (s : State) : Host.Outcome State Fault Refusal :=
  .next (cpxOp 0xE0#8 (.immediate b) s)

/-- CPX ZeroPage, opcode 0xE4 (45_compare_bit R272). -/
def execCpxZp (z : Byte) (s : State) : Host.Outcome State Fault Refusal :=
  .next (cpxOp 0xE4#8 (.zeroPage z) s)

/-- CPX Absolute, opcode 0xEC (45_compare_bit R272). -/
def execCpxAbs (a : Word) (s : State) : Host.Outcome State Fault Refusal :=
  .next (cpxOp 0xEC#8 (.absolute a) s)

/-- CPY Immediate, opcode 0xC0 (45_compare_bit R273). -/
def execCpyImm (b : Byte) (s : State) : Host.Outcome State Fault Refusal :=
  .next (cpyOp 0xC0#8 (.immediate b) s)

/-- CPY ZeroPage, opcode 0xC4 (45_compare_bit R273). -/
def execCpyZp (z : Byte) (s : State) : Host.Outcome State Fault Refusal :=
  .next (cpyOp 0xC4#8 (.zeroPage z) s)

/-- CPY Absolute, opcode 0xCC (45_compare_bit R273). -/
def execCpyAbs (a : Word) (s : State) : Host.Outcome State Fault Refusal :=
  .next (cpyOp 0xCC#8 (.absolute a) s)

/-- BIT ZeroPage, opcode 0x24 (45_compare_bit R274). -/
def execBitZp (z : Byte) (s : State) : Host.Outcome State Fault Refusal :=
  .next (bitOp 0x24#8 (.zeroPage z) s)

/-- BIT Absolute, opcode 0x2C (45_compare_bit R274). -/
def execBitAbs (a : Word) (s : State) : Host.Outcome State Fault Refusal :=
  .next (bitOp 0x2C#8 (.absolute a) s)

end Sys2Proof.Machine
end

