-- ==== Sys2Proof/Machine/Control.lean ====
section
/-! DEFINITION. Branches, jumps and subroutines (48_control_transfer). -/

namespace Sys2Proof.Machine

/-- BPL (48_control_transfer R301). -/
def bplOp : Byte → Mode → State → State :=
  branchOp .n false

/-- BMI (48_control_transfer R302). -/
def bmiOp : Byte → Mode → State → State :=
  branchOp .n true

/-- BVC (48_control_transfer R303). -/
def bvcOp : Byte → Mode → State → State :=
  branchOp .v false

/-- BVS (48_control_transfer R304). -/
def bvsOp : Byte → Mode → State → State :=
  branchOp .v true

/-- BCC (48_control_transfer R305). -/
def bccOp : Byte → Mode → State → State :=
  branchOp .c false

/-- BCS (48_control_transfer R306). -/
def bcsOp : Byte → Mode → State → State :=
  branchOp .c true

/-- BNE (48_control_transfer R307). -/
def bneOp : Byte → Mode → State → State :=
  branchOp .z false

/-- BEQ (48_control_transfer R308). -/
def beqOp : Byte → Mode → State → State :=
  branchOp .z true

/-- JMP, Absolute or Indirect (48_control_transfer R310). -/
def jmpOp (op : Byte) (m : Mode) (s : State) : State :=
  let o := resolve m s
  retire op o.1.crossed false { o.2 with pc := o.1.address }

/-- JSR: PC - 1 pushed high byte first (48_control_transfer R311). -/
def jsrOp (op : Byte) (m : Mode) (s : State) : State :=
  let o := resolve m s
  retire op o.1.crossed false { pushWord (o.2.pc - 1#16) o.2 with pc := o.1.address }

/-- RTS: the pulled word plus 1 (48_control_transfer R312). -/
def rtsOp : Byte → Mode → State → State :=
  impliedOp fun s =>
    let w := pullWord s
    { w.2 with pc := w.1 + 1#16 }

/-- BPL Relative, opcode 0x10 (48_control_transfer R301). -/
def execBpl (off : Byte) (s : State) : Host.Outcome State Fault Refusal :=
  .next (bplOp 0x10#8 (.relative off) s)

/-- BMI Relative, opcode 0x30 (48_control_transfer R302). -/
def execBmi (off : Byte) (s : State) : Host.Outcome State Fault Refusal :=
  .next (bmiOp 0x30#8 (.relative off) s)

/-- BVC Relative, opcode 0x50 (48_control_transfer R303). -/
def execBvc (off : Byte) (s : State) : Host.Outcome State Fault Refusal :=
  .next (bvcOp 0x50#8 (.relative off) s)

/-- BVS Relative, opcode 0x70 (48_control_transfer R304). -/
def execBvs (off : Byte) (s : State) : Host.Outcome State Fault Refusal :=
  .next (bvsOp 0x70#8 (.relative off) s)

/-- BCC Relative, opcode 0x90 (48_control_transfer R305). -/
def execBcc (off : Byte) (s : State) : Host.Outcome State Fault Refusal :=
  .next (bccOp 0x90#8 (.relative off) s)

/-- BCS Relative, opcode 0xB0 (48_control_transfer R306). -/
def execBcs (off : Byte) (s : State) : Host.Outcome State Fault Refusal :=
  .next (bcsOp 0xB0#8 (.relative off) s)

/-- BNE Relative, opcode 0xD0 (48_control_transfer R307). -/
def execBne (off : Byte) (s : State) : Host.Outcome State Fault Refusal :=
  .next (bneOp 0xD0#8 (.relative off) s)

/-- BEQ Relative, opcode 0xF0 (48_control_transfer R308). -/
def execBeq (off : Byte) (s : State) : Host.Outcome State Fault Refusal :=
  .next (beqOp 0xF0#8 (.relative off) s)

/-- JMP Absolute, opcode 0x4C (48_control_transfer R310). -/
def execJmpAbs (a : Word) (s : State) : Host.Outcome State Fault Refusal :=
  .next (jmpOp 0x4C#8 (.absolute a) s)

/-- JMP Indirect, opcode 0x6C (48_control_transfer R310). -/
def execJmpInd (ptr : Word) (s : State) : Host.Outcome State Fault Refusal :=
  .next (jmpOp 0x6C#8 (.indirect ptr) s)

/-- JSR Absolute, opcode 0x20 (48_control_transfer R311). -/
def execJsr (a : Word) (s : State) : Host.Outcome State Fault Refusal :=
  .next (jsrOp 0x20#8 (.absolute a) s)

/-- RTS Implied, opcode 0x60 (48_control_transfer R312). -/
def execRts (s : State) : Host.Outcome State Fault Refusal :=
  .next (rtsOp 0x60#8 .implied s)

end Sys2Proof.Machine
end

