-- ==== Sys2Proof/Machine/IncDec.lean ====
section
/-! DEFINITION. Increments and decrements (47_inc_dec). -/

namespace Sys2Proof.Machine

/-- INC (47_inc_dec R290). -/
def incOp : Byte → Mode → State → State :=
  modifyOp (fun v _ => v + 1#8) (fun v p => setNZ (v + 1#8) p)

/-- DEC (47_inc_dec R291). -/
def decOp : Byte → Mode → State → State :=
  modifyOp (fun v _ => v - 1#8) (fun v p => setNZ (v - 1#8) p)

/-- INX (47_inc_dec R292). -/
def inxOp : Byte → Mode → State → State :=
  impliedOp fun s => { s with x := s.x + 1#8, p := setNZ (s.x + 1#8) s.p }

/-- INY (47_inc_dec R293). -/
def inyOp : Byte → Mode → State → State :=
  impliedOp fun s => { s with y := s.y + 1#8, p := setNZ (s.y + 1#8) s.p }

/-- DEX (47_inc_dec R294). -/
def dexOp : Byte → Mode → State → State :=
  impliedOp fun s => { s with x := s.x - 1#8, p := setNZ (s.x - 1#8) s.p }

/-- DEY (47_inc_dec R295). -/
def deyOp : Byte → Mode → State → State :=
  impliedOp fun s => { s with y := s.y - 1#8, p := setNZ (s.y - 1#8) s.p }

/-- INC ZeroPage, opcode 0xE6 (47_inc_dec R290). -/
def execIncZp (z : Byte) (s : State) : Host.Outcome State Fault Refusal :=
  .next (incOp 0xE6#8 (.zeroPage z) s)

/-- INC ZeroPage,X, opcode 0xF6 (47_inc_dec R290). -/
def execIncZpX (z : Byte) (s : State) : Host.Outcome State Fault Refusal :=
  .next (incOp 0xF6#8 (.zeroPageX z) s)

/-- INC Absolute, opcode 0xEE (47_inc_dec R290). -/
def execIncAbs (a : Word) (s : State) : Host.Outcome State Fault Refusal :=
  .next (incOp 0xEE#8 (.absolute a) s)

/-- INC Absolute,X, opcode 0xFE (47_inc_dec R290). -/
def execIncAbsX (a : Word) (s : State) : Host.Outcome State Fault Refusal :=
  .next (incOp 0xFE#8 (.absoluteX a) s)

/-- DEC ZeroPage, opcode 0xC6 (47_inc_dec R291). -/
def execDecZp (z : Byte) (s : State) : Host.Outcome State Fault Refusal :=
  .next (decOp 0xC6#8 (.zeroPage z) s)

/-- DEC ZeroPage,X, opcode 0xD6 (47_inc_dec R291). -/
def execDecZpX (z : Byte) (s : State) : Host.Outcome State Fault Refusal :=
  .next (decOp 0xD6#8 (.zeroPageX z) s)

/-- DEC Absolute, opcode 0xCE (47_inc_dec R291). -/
def execDecAbs (a : Word) (s : State) : Host.Outcome State Fault Refusal :=
  .next (decOp 0xCE#8 (.absolute a) s)

/-- DEC Absolute,X, opcode 0xDE (47_inc_dec R291). -/
def execDecAbsX (a : Word) (s : State) : Host.Outcome State Fault Refusal :=
  .next (decOp 0xDE#8 (.absoluteX a) s)

/-- INX Implied, opcode 0xE8 (47_inc_dec R292). -/
def execInx (s : State) : Host.Outcome State Fault Refusal :=
  .next (inxOp 0xE8#8 .implied s)

/-- INY Implied, opcode 0xC8 (47_inc_dec R293). -/
def execIny (s : State) : Host.Outcome State Fault Refusal :=
  .next (inyOp 0xC8#8 .implied s)

/-- DEX Implied, opcode 0xCA (47_inc_dec R294). -/
def execDex (s : State) : Host.Outcome State Fault Refusal :=
  .next (dexOp 0xCA#8 .implied s)

/-- DEY Implied, opcode 0x88 (47_inc_dec R295). -/
def execDey (s : State) : Host.Outcome State Fault Refusal :=
  .next (deyOp 0x88#8 .implied s)

end Sys2Proof.Machine
end

