-- ==== Sys2Proof/Machine/LoadStore.lean ====
section
/-! DEFINITION. Loads and stores (40_load_store): LDA, LDX, LDY, STA, STX, STY. -/

namespace Sys2Proof.Machine

/-- LDA (40_load_store R220). -/
def ldaOp : Byte → Mode → State → State :=
  readOp fun v s => { s with a := v, p := setNZ v s.p }

/-- LDX (40_load_store R221). -/
def ldxOp : Byte → Mode → State → State :=
  readOp fun v s => { s with x := v, p := setNZ v s.p }

/-- LDY (40_load_store R222). -/
def ldyOp : Byte → Mode → State → State :=
  readOp fun v s => { s with y := v, p := setNZ v s.p }

/-- STA (40_load_store R223). -/
def staOp : Byte → Mode → State → State :=
  storeOp fun s => s.a

/-- STX (40_load_store R224). -/
def stxOp : Byte → Mode → State → State :=
  storeOp fun s => s.x

/-- STY (40_load_store R225). -/
def styOp : Byte → Mode → State → State :=
  storeOp fun s => s.y

/-- LDA Immediate, opcode 0xA9 (40_load_store R220). -/
def execLdaImm (b : Byte) (s : State) : Host.Outcome State Fault Refusal :=
  .next (ldaOp 0xA9#8 (.immediate b) s)

/-- LDA ZeroPage, opcode 0xA5 (40_load_store R220). -/
def execLdaZp (z : Byte) (s : State) : Host.Outcome State Fault Refusal :=
  .next (ldaOp 0xA5#8 (.zeroPage z) s)

/-- LDA ZeroPage,X, opcode 0xB5 (40_load_store R220). -/
def execLdaZpX (z : Byte) (s : State) : Host.Outcome State Fault Refusal :=
  .next (ldaOp 0xB5#8 (.zeroPageX z) s)

/-- LDA Absolute, opcode 0xAD (40_load_store R220). -/
def execLdaAbs (a : Word) (s : State) : Host.Outcome State Fault Refusal :=
  .next (ldaOp 0xAD#8 (.absolute a) s)

/-- LDA Absolute,X, opcode 0xBD (40_load_store R220). -/
def execLdaAbsX (a : Word) (s : State) : Host.Outcome State Fault Refusal :=
  .next (ldaOp 0xBD#8 (.absoluteX a) s)

/-- LDA Absolute,Y, opcode 0xB9 (40_load_store R220). -/
def execLdaAbsY (a : Word) (s : State) : Host.Outcome State Fault Refusal :=
  .next (ldaOp 0xB9#8 (.absoluteY a) s)

/-- LDA (Indirect,X), opcode 0xA1 (40_load_store R220). -/
def execLdaIndX (z : Byte) (s : State) : Host.Outcome State Fault Refusal :=
  .next (ldaOp 0xA1#8 (.indirectX z) s)

/-- LDA (Indirect),Y, opcode 0xB1 (40_load_store R220). -/
def execLdaIndY (z : Byte) (s : State) : Host.Outcome State Fault Refusal :=
  .next (ldaOp 0xB1#8 (.indirectY z) s)

/-- LDX Immediate, opcode 0xA2 (40_load_store R221). -/
def execLdxImm (b : Byte) (s : State) : Host.Outcome State Fault Refusal :=
  .next (ldxOp 0xA2#8 (.immediate b) s)

/-- LDX ZeroPage, opcode 0xA6 (40_load_store R221). -/
def execLdxZp (z : Byte) (s : State) : Host.Outcome State Fault Refusal :=
  .next (ldxOp 0xA6#8 (.zeroPage z) s)

/-- LDX ZeroPage,Y, opcode 0xB6 (40_load_store R221). -/
def execLdxZpY (z : Byte) (s : State) : Host.Outcome State Fault Refusal :=
  .next (ldxOp 0xB6#8 (.zeroPageY z) s)

/-- LDX Absolute, opcode 0xAE (40_load_store R221). -/
def execLdxAbs (a : Word) (s : State) : Host.Outcome State Fault Refusal :=
  .next (ldxOp 0xAE#8 (.absolute a) s)

/-- LDX Absolute,Y, opcode 0xBE (40_load_store R221). -/
def execLdxAbsY (a : Word) (s : State) : Host.Outcome State Fault Refusal :=
  .next (ldxOp 0xBE#8 (.absoluteY a) s)

/-- LDY Immediate, opcode 0xA0 (40_load_store R222). -/
def execLdyImm (b : Byte) (s : State) : Host.Outcome State Fault Refusal :=
  .next (ldyOp 0xA0#8 (.immediate b) s)

/-- LDY ZeroPage, opcode 0xA4 (40_load_store R222). -/
def execLdyZp (z : Byte) (s : State) : Host.Outcome State Fault Refusal :=
  .next (ldyOp 0xA4#8 (.zeroPage z) s)

/-- LDY ZeroPage,X, opcode 0xB4 (40_load_store R222). -/
def execLdyZpX (z : Byte) (s : State) : Host.Outcome State Fault Refusal :=
  .next (ldyOp 0xB4#8 (.zeroPageX z) s)

/-- LDY Absolute, opcode 0xAC (40_load_store R222). -/
def execLdyAbs (a : Word) (s : State) : Host.Outcome State Fault Refusal :=
  .next (ldyOp 0xAC#8 (.absolute a) s)

/-- LDY Absolute,X, opcode 0xBC (40_load_store R222). -/
def execLdyAbsX (a : Word) (s : State) : Host.Outcome State Fault Refusal :=
  .next (ldyOp 0xBC#8 (.absoluteX a) s)

/-- STA ZeroPage, opcode 0x85 (40_load_store R223). -/
def execStaZp (z : Byte) (s : State) : Host.Outcome State Fault Refusal :=
  .next (staOp 0x85#8 (.zeroPage z) s)

/-- STA ZeroPage,X, opcode 0x95 (40_load_store R223). -/
def execStaZpX (z : Byte) (s : State) : Host.Outcome State Fault Refusal :=
  .next (staOp 0x95#8 (.zeroPageX z) s)

/-- STA Absolute, opcode 0x8D (40_load_store R223). -/
def execStaAbs (a : Word) (s : State) : Host.Outcome State Fault Refusal :=
  .next (staOp 0x8D#8 (.absolute a) s)

/-- STA Absolute,X, opcode 0x9D (40_load_store R223). -/
def execStaAbsX (a : Word) (s : State) : Host.Outcome State Fault Refusal :=
  .next (staOp 0x9D#8 (.absoluteX a) s)

/-- STA Absolute,Y, opcode 0x99 (40_load_store R223). -/
def execStaAbsY (a : Word) (s : State) : Host.Outcome State Fault Refusal :=
  .next (staOp 0x99#8 (.absoluteY a) s)

/-- STA (Indirect,X), opcode 0x81 (40_load_store R223). -/
def execStaIndX (z : Byte) (s : State) : Host.Outcome State Fault Refusal :=
  .next (staOp 0x81#8 (.indirectX z) s)

/-- STA (Indirect),Y, opcode 0x91 (40_load_store R223). -/
def execStaIndY (z : Byte) (s : State) : Host.Outcome State Fault Refusal :=
  .next (staOp 0x91#8 (.indirectY z) s)

/-- STX ZeroPage, opcode 0x86 (40_load_store R224). -/
def execStxZp (z : Byte) (s : State) : Host.Outcome State Fault Refusal :=
  .next (stxOp 0x86#8 (.zeroPage z) s)

/-- STX ZeroPage,Y, opcode 0x96 (40_load_store R224). -/
def execStxZpY (z : Byte) (s : State) : Host.Outcome State Fault Refusal :=
  .next (stxOp 0x96#8 (.zeroPageY z) s)

/-- STX Absolute, opcode 0x8E (40_load_store R224). -/
def execStxAbs (a : Word) (s : State) : Host.Outcome State Fault Refusal :=
  .next (stxOp 0x8E#8 (.absolute a) s)

/-- STY ZeroPage, opcode 0x84 (40_load_store R225). -/
def execStyZp (z : Byte) (s : State) : Host.Outcome State Fault Refusal :=
  .next (styOp 0x84#8 (.zeroPage z) s)

/-- STY ZeroPage,X, opcode 0x94 (40_load_store R225). -/
def execStyZpX (z : Byte) (s : State) : Host.Outcome State Fault Refusal :=
  .next (styOp 0x94#8 (.zeroPageX z) s)

/-- STY Absolute, opcode 0x8C (40_load_store R225). -/
def execStyAbs (a : Word) (s : State) : Host.Outcome State Fault Refusal :=
  .next (styOp 0x8C#8 (.absolute a) s)

end Sys2Proof.Machine
end

