-- ==== Sys2Proof/Machine/Logical.lean ====
section
/-! DEFINITION. AND, ORA, EOR (44_logical). -/

namespace Sys2Proof.Machine

/-- AND (44_logical R260). -/
def andOp : Byte → Mode → State → State :=
  readOp fun m s => { s with a := s.a &&& m, p := setNZ (s.a &&& m) s.p }

/-- ORA (44_logical R261). -/
def oraOp : Byte → Mode → State → State :=
  readOp fun m s => { s with a := s.a ||| m, p := setNZ (s.a ||| m) s.p }

/-- EOR (44_logical R262). -/
def eorOp : Byte → Mode → State → State :=
  readOp fun m s => { s with a := s.a ^^^ m, p := setNZ (s.a ^^^ m) s.p }

/-- AND Immediate, opcode 0x29 (44_logical R260). -/
def execAndImm (b : Byte) (s : State) : Host.Outcome State Fault Refusal :=
  .next (andOp 0x29#8 (.immediate b) s)

/-- AND ZeroPage, opcode 0x25 (44_logical R260). -/
def execAndZp (z : Byte) (s : State) : Host.Outcome State Fault Refusal :=
  .next (andOp 0x25#8 (.zeroPage z) s)

/-- AND ZeroPage,X, opcode 0x35 (44_logical R260). -/
def execAndZpX (z : Byte) (s : State) : Host.Outcome State Fault Refusal :=
  .next (andOp 0x35#8 (.zeroPageX z) s)

/-- AND Absolute, opcode 0x2D (44_logical R260). -/
def execAndAbs (a : Word) (s : State) : Host.Outcome State Fault Refusal :=
  .next (andOp 0x2D#8 (.absolute a) s)

/-- AND Absolute,X, opcode 0x3D (44_logical R260). -/
def execAndAbsX (a : Word) (s : State) : Host.Outcome State Fault Refusal :=
  .next (andOp 0x3D#8 (.absoluteX a) s)

/-- AND Absolute,Y, opcode 0x39 (44_logical R260). -/
def execAndAbsY (a : Word) (s : State) : Host.Outcome State Fault Refusal :=
  .next (andOp 0x39#8 (.absoluteY a) s)

/-- AND (Indirect,X), opcode 0x21 (44_logical R260). -/
def execAndIndX (z : Byte) (s : State) : Host.Outcome State Fault Refusal :=
  .next (andOp 0x21#8 (.indirectX z) s)

/-- AND (Indirect),Y, opcode 0x31 (44_logical R260). -/
def execAndIndY (z : Byte) (s : State) : Host.Outcome State Fault Refusal :=
  .next (andOp 0x31#8 (.indirectY z) s)

/-- ORA Immediate, opcode 0x09 (44_logical R261). -/
def execOraImm (b : Byte) (s : State) : Host.Outcome State Fault Refusal :=
  .next (oraOp 0x09#8 (.immediate b) s)

/-- ORA ZeroPage, opcode 0x05 (44_logical R261). -/
def execOraZp (z : Byte) (s : State) : Host.Outcome State Fault Refusal :=
  .next (oraOp 0x05#8 (.zeroPage z) s)

/-- ORA ZeroPage,X, opcode 0x15 (44_logical R261). -/
def execOraZpX (z : Byte) (s : State) : Host.Outcome State Fault Refusal :=
  .next (oraOp 0x15#8 (.zeroPageX z) s)

/-- ORA Absolute, opcode 0x0D (44_logical R261). -/
def execOraAbs (a : Word) (s : State) : Host.Outcome State Fault Refusal :=
  .next (oraOp 0x0D#8 (.absolute a) s)

/-- ORA Absolute,X, opcode 0x1D (44_logical R261). -/
def execOraAbsX (a : Word) (s : State) : Host.Outcome State Fault Refusal :=
  .next (oraOp 0x1D#8 (.absoluteX a) s)

/-- ORA Absolute,Y, opcode 0x19 (44_logical R261). -/
def execOraAbsY (a : Word) (s : State) : Host.Outcome State Fault Refusal :=
  .next (oraOp 0x19#8 (.absoluteY a) s)

/-- ORA (Indirect,X), opcode 0x01 (44_logical R261). -/
def execOraIndX (z : Byte) (s : State) : Host.Outcome State Fault Refusal :=
  .next (oraOp 0x01#8 (.indirectX z) s)

/-- ORA (Indirect),Y, opcode 0x11 (44_logical R261). -/
def execOraIndY (z : Byte) (s : State) : Host.Outcome State Fault Refusal :=
  .next (oraOp 0x11#8 (.indirectY z) s)

/-- EOR Immediate, opcode 0x49 (44_logical R262). -/
def execEorImm (b : Byte) (s : State) : Host.Outcome State Fault Refusal :=
  .next (eorOp 0x49#8 (.immediate b) s)

/-- EOR ZeroPage, opcode 0x45 (44_logical R262). -/
def execEorZp (z : Byte) (s : State) : Host.Outcome State Fault Refusal :=
  .next (eorOp 0x45#8 (.zeroPage z) s)

/-- EOR ZeroPage,X, opcode 0x55 (44_logical R262). -/
def execEorZpX (z : Byte) (s : State) : Host.Outcome State Fault Refusal :=
  .next (eorOp 0x55#8 (.zeroPageX z) s)

/-- EOR Absolute, opcode 0x4D (44_logical R262). -/
def execEorAbs (a : Word) (s : State) : Host.Outcome State Fault Refusal :=
  .next (eorOp 0x4D#8 (.absolute a) s)

/-- EOR Absolute,X, opcode 0x5D (44_logical R262). -/
def execEorAbsX (a : Word) (s : State) : Host.Outcome State Fault Refusal :=
  .next (eorOp 0x5D#8 (.absoluteX a) s)

/-- EOR Absolute,Y, opcode 0x59 (44_logical R262). -/
def execEorAbsY (a : Word) (s : State) : Host.Outcome State Fault Refusal :=
  .next (eorOp 0x59#8 (.absoluteY a) s)

/-- EOR (Indirect,X), opcode 0x41 (44_logical R262). -/
def execEorIndX (z : Byte) (s : State) : Host.Outcome State Fault Refusal :=
  .next (eorOp 0x41#8 (.indirectX z) s)

/-- EOR (Indirect),Y, opcode 0x51 (44_logical R262). -/
def execEorIndY (z : Byte) (s : State) : Host.Outcome State Fault Refusal :=
  .next (eorOp 0x51#8 (.indirectY z) s)

end Sys2Proof.Machine
end

