-- ==== Sys2Proof/Machine/ShiftRotate.lean ====
section
/-! DEFINITION. Shifts and rotates (46_shift_rotate), on A or on memory. -/

namespace Sys2Proof.Machine

/-- ASL (46_shift_rotate R281). -/
def aslOp : Byte → Mode → State → State :=
  modifyOp (fun v c => (shiftAsl v c).result) (fun v p => shiftFlags (shiftAsl v (getFlag .c p)) p)

/-- LSR (46_shift_rotate R282). -/
def lsrOp : Byte → Mode → State → State :=
  modifyOp (fun v c => (shiftLsr v c).result) (fun v p => shiftFlags (shiftLsr v (getFlag .c p)) p)

/-- ROL (46_shift_rotate R283). -/
def rolOp : Byte → Mode → State → State :=
  modifyOp (fun v c => (shiftRol v c).result) (fun v p => shiftFlags (shiftRol v (getFlag .c p)) p)

/-- ROR (46_shift_rotate R284). -/
def rorOp : Byte → Mode → State → State :=
  modifyOp (fun v c => (shiftRor v c).result) (fun v p => shiftFlags (shiftRor v (getFlag .c p)) p)

/-- ASL Accumulator, opcode 0x0A (46_shift_rotate R281). -/
def execAslAcc (s : State) : Host.Outcome State Fault Refusal :=
  .next (aslOp 0x0A#8 .accumulator s)

/-- ASL ZeroPage, opcode 0x06 (46_shift_rotate R281). -/
def execAslZp (z : Byte) (s : State) : Host.Outcome State Fault Refusal :=
  .next (aslOp 0x06#8 (.zeroPage z) s)

/-- ASL ZeroPage,X, opcode 0x16 (46_shift_rotate R281). -/
def execAslZpX (z : Byte) (s : State) : Host.Outcome State Fault Refusal :=
  .next (aslOp 0x16#8 (.zeroPageX z) s)

/-- ASL Absolute, opcode 0x0E (46_shift_rotate R281). -/
def execAslAbs (a : Word) (s : State) : Host.Outcome State Fault Refusal :=
  .next (aslOp 0x0E#8 (.absolute a) s)

/-- ASL Absolute,X, opcode 0x1E (46_shift_rotate R281). -/
def execAslAbsX (a : Word) (s : State) : Host.Outcome State Fault Refusal :=
  .next (aslOp 0x1E#8 (.absoluteX a) s)

/-- LSR Accumulator, opcode 0x4A (46_shift_rotate R282). -/
def execLsrAcc (s : State) : Host.Outcome State Fault Refusal :=
  .next (lsrOp 0x4A#8 .accumulator s)

/-- LSR ZeroPage, opcode 0x46 (46_shift_rotate R282). -/
def execLsrZp (z : Byte) (s : State) : Host.Outcome State Fault Refusal :=
  .next (lsrOp 0x46#8 (.zeroPage z) s)

/-- LSR ZeroPage,X, opcode 0x56 (46_shift_rotate R282). -/
def execLsrZpX (z : Byte) (s : State) : Host.Outcome State Fault Refusal :=
  .next (lsrOp 0x56#8 (.zeroPageX z) s)

/-- LSR Absolute, opcode 0x4E (46_shift_rotate R282). -/
def execLsrAbs (a : Word) (s : State) : Host.Outcome State Fault Refusal :=
  .next (lsrOp 0x4E#8 (.absolute a) s)

/-- LSR Absolute,X, opcode 0x5E (46_shift_rotate R282). -/
def execLsrAbsX (a : Word) (s : State) : Host.Outcome State Fault Refusal :=
  .next (lsrOp 0x5E#8 (.absoluteX a) s)

/-- ROL Accumulator, opcode 0x2A (46_shift_rotate R283). -/
def execRolAcc (s : State) : Host.Outcome State Fault Refusal :=
  .next (rolOp 0x2A#8 .accumulator s)

/-- ROL ZeroPage, opcode 0x26 (46_shift_rotate R283). -/
def execRolZp (z : Byte) (s : State) : Host.Outcome State Fault Refusal :=
  .next (rolOp 0x26#8 (.zeroPage z) s)

/-- ROL ZeroPage,X, opcode 0x36 (46_shift_rotate R283). -/
def execRolZpX (z : Byte) (s : State) : Host.Outcome State Fault Refusal :=
  .next (rolOp 0x36#8 (.zeroPageX z) s)

/-- ROL Absolute, opcode 0x2E (46_shift_rotate R283). -/
def execRolAbs (a : Word) (s : State) : Host.Outcome State Fault Refusal :=
  .next (rolOp 0x2E#8 (.absolute a) s)

/-- ROL Absolute,X, opcode 0x3E (46_shift_rotate R283). -/
def execRolAbsX (a : Word) (s : State) : Host.Outcome State Fault Refusal :=
  .next (rolOp 0x3E#8 (.absoluteX a) s)

/-- ROR Accumulator, opcode 0x6A (46_shift_rotate R284). -/
def execRorAcc (s : State) : Host.Outcome State Fault Refusal :=
  .next (rorOp 0x6A#8 .accumulator s)

/-- ROR ZeroPage, opcode 0x66 (46_shift_rotate R284). -/
def execRorZp (z : Byte) (s : State) : Host.Outcome State Fault Refusal :=
  .next (rorOp 0x66#8 (.zeroPage z) s)

/-- ROR ZeroPage,X, opcode 0x76 (46_shift_rotate R284). -/
def execRorZpX (z : Byte) (s : State) : Host.Outcome State Fault Refusal :=
  .next (rorOp 0x76#8 (.zeroPageX z) s)

/-- ROR Absolute, opcode 0x6E (46_shift_rotate R284). -/
def execRorAbs (a : Word) (s : State) : Host.Outcome State Fault Refusal :=
  .next (rorOp 0x6E#8 (.absolute a) s)

/-- ROR Absolute,X, opcode 0x7E (46_shift_rotate R284). -/
def execRorAbsX (a : Word) (s : State) : Host.Outcome State Fault Refusal :=
  .next (rorOp 0x7E#8 (.absoluteX a) s)

end Sys2Proof.Machine
end

