-- ==== Sys2Proof/Machine/Stack.lean ====
section
/-! DEFINITION. Stack instructions (42_stack): PHA, PHP, PLA, PLP. -/

namespace Sys2Proof.Machine

/-- PHA (42_stack R240). -/
def phaOp : Byte → Mode → State → State :=
  impliedOp fun s => push s.a s

/-- PHP: P is pushed with B and bit 5 set, P itself is kept (42_stack R241). -/
def phpOp : Byte → Mode → State → State :=
  impliedOp fun s => push (pushedP true s.p) s

/-- PLA (42_stack R242). -/
def plaOp : Byte → Mode → State → State :=
  impliedOp fun s =>
    let v := pull s
    { v.2 with a := v.1, p := setNZ v.1 v.2.p }

/-- PLP (42_stack R243). -/
def plpOp : Byte → Mode → State → State :=
  impliedOp fun s =>
    let v := pull s
    { v.2 with p := restoreP v.1 }

/-- PHA Implied, opcode 0x48 (42_stack R240). -/
def execPha (s : State) : Host.Outcome State Fault Refusal :=
  .next (phaOp 0x48#8 .implied s)

/-- PHP Implied, opcode 0x08 (42_stack R241). -/
def execPhp (s : State) : Host.Outcome State Fault Refusal :=
  .next (phpOp 0x08#8 .implied s)

/-- PLA Implied, opcode 0x68 (42_stack R242). -/
def execPla (s : State) : Host.Outcome State Fault Refusal :=
  .next (plaOp 0x68#8 .implied s)

/-- PLP Implied, opcode 0x28 (42_stack R243). -/
def execPlp (s : State) : Host.Outcome State Fault Refusal :=
  .next (plpOp 0x28#8 .implied s)

end Sys2Proof.Machine
end

