-- ==== Sys2Proof/Machine/System.lean ====
section
/-! DEFINITION. BRK, RTI, flag operations, NOP (49_system_flags), and the halt of an illegal opcode byte (60 R360). -/

namespace Sys2Proof.Machine

/-- BRK: the return address is PC + 1, one past the padding byte, which is not read (49_system_flags R320; 92 D34). -/
def brkOp : Byte → Mode → State → State :=
  impliedOp fun s => takeException Config.irqVector (s.pc + 1#16) true s

/-- RTI (49_system_flags R321). -/
def rtiOp : Byte → Mode → State → State :=
  impliedOp returnFromException

/-- CLC (49_system_flags R322). -/
def clcOp : Byte → Mode → State → State :=
  impliedOp (State.withFlag .c false)

/-- SEC (49_system_flags R323). -/
def secOp : Byte → Mode → State → State :=
  impliedOp (State.withFlag .c true)

/-- CLI (49_system_flags R324). -/
def cliOp : Byte → Mode → State → State :=
  impliedOp (State.withFlag .i false)

/-- SEI (49_system_flags R325). -/
def seiOp : Byte → Mode → State → State :=
  impliedOp (State.withFlag .i true)

/-- CLV (49_system_flags R326). -/
def clvOp : Byte → Mode → State → State :=
  impliedOp (State.withFlag .v false)

/-- CLD (49_system_flags R327). -/
def cldOp : Byte → Mode → State → State :=
  impliedOp (State.withFlag .d false)

/-- SED (49_system_flags R328). -/
def sedOp : Byte → Mode → State → State :=
  impliedOp (State.withFlag .d true)

/-- NOP (49_system_flags R329). -/
def nopOp : Byte → Mode → State → State :=
  impliedOp id

/-- BRK Implied, opcode 0x00 (49_system_flags R320). -/
def execBrk (s : State) : Host.Outcome State Fault Refusal :=
  .next (brkOp 0x00#8 .implied s)

/-- RTI Implied, opcode 0x40 (49_system_flags R321). -/
def execRti (s : State) : Host.Outcome State Fault Refusal :=
  .next (rtiOp 0x40#8 .implied s)

/-- CLC Implied, opcode 0x18 (49_system_flags R322). -/
def execClc (s : State) : Host.Outcome State Fault Refusal :=
  .next (clcOp 0x18#8 .implied s)

/-- SEC Implied, opcode 0x38 (49_system_flags R323). -/
def execSec (s : State) : Host.Outcome State Fault Refusal :=
  .next (secOp 0x38#8 .implied s)

/-- CLI Implied, opcode 0x58 (49_system_flags R324). -/
def execCli (s : State) : Host.Outcome State Fault Refusal :=
  .next (cliOp 0x58#8 .implied s)

/-- SEI Implied, opcode 0x78 (49_system_flags R325). -/
def execSei (s : State) : Host.Outcome State Fault Refusal :=
  .next (seiOp 0x78#8 .implied s)

/-- CLV Implied, opcode 0xB8 (49_system_flags R326). -/
def execClv (s : State) : Host.Outcome State Fault Refusal :=
  .next (clvOp 0xB8#8 .implied s)

/-- CLD Implied, opcode 0xD8 (49_system_flags R327). -/
def execCld (s : State) : Host.Outcome State Fault Refusal :=
  .next (cldOp 0xD8#8 .implied s)

/-- SED Implied, opcode 0xF8 (49_system_flags R328). -/
def execSed (s : State) : Host.Outcome State Fault Refusal :=
  .next (sedOp 0xF8#8 .implied s)

/-- NOP Implied, opcode 0xEA (49_system_flags R329). -/
def execNop (s : State) : Host.Outcome State Fault Refusal :=
  .next (nopOp 0xEA#8 .implied s)

/-- The state an illegal opcode byte leaves: PC at the opcode, the machine halted, nothing else changed (60 R360). `s` is the
state after the opcode fetch. -/
def haltState (op : Byte) (s : State) : State := { s with pc := s.pc - 1#16, halted := .halted (s.pc - 1#16) op }

/-- An illegal opcode byte halts the machine and reports the offending PC and the byte (30_encoding R179; 60 R360, R362). -/
def execUnknown (op : Byte) (s : State) : Host.Outcome State Fault Refusal :=
  .fault (.unknownOpcode (s.pc - 1#16) op (haltState op s))

end Sys2Proof.Machine
end

