-- ==== Sys2Proof/Machine/Transfer.lean ====
section
/-! DEFINITION. Register transfers (41_transfer). -/

namespace Sys2Proof.Machine

/-- TAX (41_transfer R230). -/
def taxOp : Byte → Mode → State → State :=
  impliedOp fun s => { s with x := s.a, p := setNZ s.a s.p }

/-- TAY (41_transfer R231). -/
def tayOp : Byte → Mode → State → State :=
  impliedOp fun s => { s with y := s.a, p := setNZ s.a s.p }

/-- TXA (41_transfer R232). -/
def txaOp : Byte → Mode → State → State :=
  impliedOp fun s => { s with a := s.x, p := setNZ s.x s.p }

/-- TYA (41_transfer R233). -/
def tyaOp : Byte → Mode → State → State :=
  impliedOp fun s => { s with a := s.y, p := setNZ s.y s.p }

/-- TSX (41_transfer R234). -/
def tsxOp : Byte → Mode → State → State :=
  impliedOp fun s => { s with x := s.sp, p := setNZ s.sp s.p }

/-- TXS: no flag is written (41_transfer R235). -/
def txsOp : Byte → Mode → State → State :=
  impliedOp fun s => { s with sp := s.x }

/-- TAX Implied, opcode 0xAA (41_transfer R230). -/
def execTax (s : State) : Host.Outcome State Fault Refusal :=
  .next (taxOp 0xAA#8 .implied s)

/-- TAY Implied, opcode 0xA8 (41_transfer R231). -/
def execTay (s : State) : Host.Outcome State Fault Refusal :=
  .next (tayOp 0xA8#8 .implied s)

/-- TXA Implied, opcode 0x8A (41_transfer R232). -/
def execTxa (s : State) : Host.Outcome State Fault Refusal :=
  .next (txaOp 0x8A#8 .implied s)

/-- TYA Implied, opcode 0x98 (41_transfer R233). -/
def execTya (s : State) : Host.Outcome State Fault Refusal :=
  .next (tyaOp 0x98#8 .implied s)

/-- TSX Implied, opcode 0xBA (41_transfer R234). -/
def execTsx (s : State) : Host.Outcome State Fault Refusal :=
  .next (tsxOp 0xBA#8 .implied s)

/-- TXS Implied, opcode 0x9A (41_transfer R235). -/
def execTxs (s : State) : Host.Outcome State Fault Refusal :=
  .next (txsOp 0x9A#8 .implied s)

end Sys2Proof.Machine
end

