-- ==== Sys2Proof/Machine/FetchPlace.lean ====
section
/-! DEFINITION. Placing bytes where the next fetches read them: a program loaded from outside the machine (log entry 5).
It is no instruction and no host move. -/

namespace Sys2Proof.Machine

/-- Whether an address reads a byte that can be placed: RAM, PRG-RAM or PRG-ROM (20_memory R72). -/
def placeable (a : Word) : Bool :=
  match route a with
  | .ram => true
  | .cartridge => true
  | .ppu => false
  | .apu => false
  | .input => false
  | .unmapped => false

/-- A byte put where a bus read of the address finds it: in RAM, in PRG-RAM, or in the PRG-ROM image at the index the
mapper selects. -/
def placeByte (a : Word) (v : Byte) (s : State) : State :=
  match route a with
  | .ram => { s with ram := s.ram.write (ramOffset a) v }
  | .cartridge =>
    if a < 0x8000#16 then { s with prgRam := s.prgRam.write (prgRamOffset a) v }
    else
      { s with cart := { s.cart with prgRom := s.cart.prgRom.write (prgIndex a s % prgRomSize s.cart) v } }
  | .ppu => s
  | .apu => s
  | .input => s
  | .unmapped => s

/-- Bytes placed from an address on, the address wrapping (10_state R44). -/
def placeBytes : Word → List Byte → State → State
  | _, [], s => s
  | a, v :: rest, s => placeBytes (a + 1#16) rest (placeByte a v s)

/-- The address of the next fetch when three bytes can be placed there, else 0x0000 (log entry 19). -/
def placePc (s : State) : Word :=
  if placeable s.pc && placeable (s.pc + 1#16) && placeable (s.pc + 2#16) then s.pc else 0x0000#16

/-- A state whose very next step fetches and runs the given bytes: running, no interrupt to take, the bytes in place. -/
def placeProgram (bytes : List Byte) (s : State) : State :=
  placeBytes (placePc s) bytes
    { s with
      pc := placePc s
      halted := .running
      nmiPending := false
      irqPending := s.irqPending && s.flag .i }

end Sys2Proof.Machine
end

