-- ==== Sys2Proof/Machine/Step.lean ====
section
/-! DEFINITION. One step of the CPU (30_encoding R172; 60 R346), and the state whose next step runs a given instruction. -/

namespace Sys2Proof.Machine

/-- `Step()` (30_encoding R172): halted before NMI before IRQ before an instruction (60 R346). -/
def step (s : State) : Host.Outcome State Fault Refusal :=
  match s.halted with
  | .halted pc op => .fault (.machineHalted pc op)
  | .running =>
    if s.nmiPending then .next (nmiEntry s)
    else if s.irqPending && !s.flag .i then .next (irqEntry s)
    else exec (fetchInstr s).1 (fetchInstr s).2

/-- The state with an instruction of the opcode table placed where the next step fetches (log entries 5 and 19). -/
def State.withFetchWord (s : State) (nbits w : Nat) : State := placeProgram (tableBytes nbits w) s

end Sys2Proof.Machine
end

