-- ==== Sys2Proof/Machine/Cartridge.lean ====
section
/-! DEFINITION. Building the configuration parameters from a cartridge file: the header interpretation of 20_memory R150
to R157. -/

namespace Sys2Proof.Machine

/-- The magic, bytes 0 to 3 (20_memory R150). -/
def headerMagic : List Byte := [0x4E#8, 0x45#8, 0x53#8, 0x1A#8]

/-- The nine ASCII bytes `DiskDude!` (20_memory R154). -/
def diskDude : List Byte := [0x44#8, 0x69#8, 0x73#8, 0x6B#8, 0x44#8, 0x75#8, 0x64#8, 0x65#8, 0x21#8]

/-- The header fields a mapper needs (20_memory R151). -/
structure HeaderFields where
  prgBanks : Nat
  chrBanks : Nat
  flags6 : Byte
  flags7 : Byte
  deriving DecidableEq, Repr

/-- The fields of a 16-byte header; the corruption pattern at bytes 7 to 15 makes flags7 zero (20_memory R151, R154, R156). -/
def headerFields (header : List Byte) : HeaderFields :=
  { prgBanks := (header.getD 4 0#8).toNat
    chrBanks := (header.getD 5 0#8).toNat
    flags6 := header.getD 6 0#8
    flags7 := if (header.drop 7).take 9 = diskDude then 0#8 else header.getD 7 0#8 }

/-- The mapper number (20_memory R152). -/
def mapperNumber (h : HeaderFields) : Nat := ((h.flags7 &&& 0xF0#8) ||| (h.flags6 >>> 4)).toNat

/-- The mapper variant of a number (00_scope R4; 20_memory R157). -/
def mapperOf : Nat → Option MapperKind
  | 0 => some .nrom
  | 1 => some .sxrom
  | 2 => some .unrom
  | 3 => some .cnrom
  | _ => none

/-- HEADER_MIRRORING (20_memory R153). -/
def headerMirroringOf (h : HeaderFields) : HeaderMirroring := if h.flags6.getLsbD 0 then .vertical else .horizontal

/-- The length of the trainer, skipped when present (20_memory R155). -/
def trainerSize (h : HeaderFields) : Nat := if h.flags6.getLsbD 2 then 512 else 0

/-- The configuration a cartridge file gives, or why it is refused (20_memory R150 to R157; the order of the refusals and
the disregard of bytes after CHR-ROM are log entry 18). -/
def loadCartridge (file : List Byte) : Except Refusal Cartridge :=
  let h := headerFields (file.take 16)
  let body := file.drop (16 + trainerSize h)
  let prgSize := h.prgBanks * Config.prgBankSize
  let chrSize := h.chrBanks * Config.chrBankSize
  if file.take 4 ≠ headerMagic then .error .badMagic
  else if file.length < 16 + trainerSize h + prgSize + chrSize then .error .truncatedFile
  else
    match mapperOf (mapperNumber h) with
    | none => .error (.unsupportedMapper (mapperNumber h))
    | some k =>
      if h.prgBanks = 0 then .error .noPrgRom
      else
        .ok { mapper := k
              prgBanks := h.prgBanks
              prgRom := Memory.ofBytes (body.take prgSize)
              chrBanks := h.chrBanks
              chrRom := Memory.ofBytes ((body.drop prgSize).take chrSize)
              headerMirroring := headerMirroringOf h }

/-- Power-on from a cartridge file (70 R380): parse, construct, reset. -/
def powerOnFile (file : List Byte) : Except Refusal State :=
  match loadCartridge file with
  | .error e => .error e
  | .ok c => powerOn c

end Sys2Proof.Machine
end

