-- ==== Sys2Proof/Machine/HostPort.lean ====
section
/-! DEFINITION. What the host can do to the block between steps (70 R400), and the record of the device ports (20_memory
R80, R81). -/

namespace Sys2Proof.Machine

/-- The moves of the host (70 R400). A claim about every arrival of NMI, IRQ and reset requests (00_scope R14) is a claim
about every list of moves (log entry 4). -/
inductive HostMove where
  | step
  | assertNmi
  | assertIrq
  | reset
  | chrLoad (a : Nat)
  | chrStore (a : Nat) (v : Byte)
  | readMirroring
  deriving DecidableEq, Repr

/-- Asserting NMI sets the latch; on a halted machine it has no effect (60 R341, R342, R361). -/
def assertNmi (s : State) : State :=
  match s.halted with
  | .running => { s with nmiPending := true }
  | .halted _ _ => s

/-- Asserting IRQ sets the latch; on a halted machine it has no effect (60 R343, R344, R361). -/
def assertIrq (s : State) : State :=
  match s.halted with
  | .running => { s with irqPending := true }
  | .halted _ _ => s

/-- A reset request: the reset sequence on a running machine, no move on a halted one (70 R383 to R389). -/
def cpuReset (s : State) : Host.Outcome State Fault Refusal :=
  match s.halted with
  | .running => .next (resetSequence s)
  | .halted pc op => .fault (.machineHalted pc op)

/-- What a move of the host does to the state (70 R400). The byte and the value that CHR loads and the mirroring output
return are `chrLoad` and `mirroringOutput`; they change nothing. -/
def hostMove (m : HostMove) (s : State) : Host.Outcome State Fault Refusal :=
  match m with
  | .step => step s
  | .assertNmi => .next (assertNmi s)
  | .assertIrq => .next (assertIrq s)
  | .reset => cpuReset s
  | .chrLoad a =>
    match chrLoad a s with
    | .ok _ => .next s
    | .error e => .refused e
  | .chrStore a v =>
    match chrStore a v s with
    | .ok t => .next t
    | .error e => .refused e
  | .readMirroring => .next s

/-- The accesses of the external device ports so far, oldest first, each a separate event (20_memory R81). -/
def portEvents (s : State) : List BusEvent := (s.bus.filter (fun e => isPort e.addr)).reverse

/-- The halt output: the offending PC and opcode (60 R362). -/
def haltReport (s : State) : Option (Word × Byte) :=
  match s.halted with
  | .running => none
  | .halted pc op => some (pc, op)

end Sys2Proof.Machine
end

