-- ==== Sys2Proof/Safety.lean ====
section
/-! DEFINITION. What counts as a safe state and a safe run, in the terms claims use: the invariant of every reachable state
(10_state R34, R35; 20_memory R111 to R113, R120, R122), what the CPU leaves alone, and the end of a run (70 R402). -/

namespace Sys2Proof.Machine

/-- A cartridge a machine exists for: at least one PRG bank, and images in canonical form within their vectors (00_scope R13;
20_memory R157). -/
structure Cartridge.Valid (c : Cartridge) : Prop where
  banks : 1 ≤ c.prgBanks
  prgWf : c.prgRom.wf = true
  prgBelow : c.prgRom.below (prgRomSize c) = true
  chrWf : c.chrRom.wf = true
  chrBelow : c.chrRom.below (chrRomSize c) = true

/-- The invariant of every reachable state: P holds bit 5 = 1 and B = 0, every memory array is canonical and within its
size, the SxROM serial count is at most 4 and its accumulator holds no bit above the count, and the cartridge is valid. -/
structure State.Inv (s : State) : Prop where
  bit5 : s.flag .u = true
  break0 : s.flag .b = false
  ramWf : s.ram.wf = true
  ramBelow : s.ram.below Config.ramSize = true
  prgRamWf : s.prgRam.wf = true
  prgRamBelow : s.prgRam.below Config.prgRamSize = true
  chrRamWf : s.chrRam.wf = true
  chrRamBelow : s.chrRam.below Config.chrRamSize = true
  serialCount : s.sxrom.writeCount.toNat ≤ 4
  serialBits : s.sxrom.shiftAccumulator.toNat < 2 ^ s.sxrom.writeCount.toNat
  cartridge : s.cart.Valid

/-- Two CPU addresses that name the same byte of storage: equal, or mirrors of one byte of system RAM (20_memory R75). -/
def sameByte (a b : Word) : Bool :=
  a == b || (route a == .ram && route b == .ram && ramOffset a == ramOffset b)

/-- Every byte of memory reads as before: every address but those of the device ports, whose reads are draws. -/
def memoryUnchanged (s t : State) : Prop := ∀ a, isPort a = false → readValue a t = readValue a s

/-- Every byte of memory outside the one an address names reads as before. -/
def memoryUnchangedExcept (ea : Word) (s t : State) : Prop :=
  ∀ a, isPort a = false → sameByte ea a = false → readValue a t = readValue a s

/-- A run of host moves, stopping at the first fault or refusal (70 R400, R402). -/
def runMoves : List HostMove → State → Host.Outcome State Fault Refusal
  | [], s => .next s
  | m :: rest, s =>
    match hostMove m s with
    | .next t => runMoves rest t
    | .fault f => .fault f
    | .refused r => .refused r

/-- How a run of steps ends (70 R402): at the stop address, at the step count, or at the halt, which is no success. -/
inductive RunEnd where
  | atStop (s : State)
  | atCount (s : State)
  | stopped (f : Fault)
  | refused (r : Refusal)
  deriving DecidableEq, Repr

/-- A step entry at the stop address with no interrupt pending (70 R402; log entry 22). -/
def atStopAddress (stop : Word) (s : State) : Bool := s.pc == stop && !s.nmiPending && !s.irqPending

/-- A run from a state to its end: at most n steps, ending at the first step entry at the stop address (70 R402). -/
def runUntil (stop : Word) : Nat → State → RunEnd
  | 0, s => if atStopAddress stop s then .atStop s else .atCount s
  | n + 1, s =>
    if atStopAddress stop s then .atStop s
    else
      match step s with
      | .next t => runUntil stop n t
      | .fault f => .stopped f
      | .refused r => .refused r

/-- A safe run: n steps that all complete. -/
def safeRun (n : Nat) (s : State) : Prop := ∃ t, Host.Core.run Sys2Proof.core n s = .next t

/-! What claims say about one instruction. -/

/-- The byte an instruction's operand loads (30_encoding R185). -/
def operandByte (m : Mode) (s : State) : Byte := (load (resolve m s).1 (resolve m s).2).1

/-- The state after an instruction's operand is resolved and loaded: only `bus` and `draws` may differ. -/
def afterLoad (m : Mode) (s : State) : State := (load (resolve m s).1 (resolve m s).2).2

/-- Z and N are those of a byte, every other flag is kept (00_scope, `SetNZ`). -/
def nzFlags (v : Byte) (s t : State) : Prop :=
  t.flag .z = (v == 0#8) ∧ t.flag .n = v.getLsbD 7 ∧ ∀ f, f ≠ .z → f ≠ .n → t.flag f = s.flag f

/-- The mapper registers are kept (10_state R50). -/
def mapperUnchanged (s t : State) : Prop :=
  t.sxrom = s.sxrom ∧ t.unromPrgBank = s.unromPrgBank ∧ t.cnromChrBank = s.cnromChrBank

/-- The effect on memory and on the mapper registers of storing a byte at an address, by what the address decodes to
(20_memory R73 to R79, R84, R111, R116, R121 to R127, R141, R146). -/
def storeEffect (ea : Word) (v : Byte) (s t : State) : Prop :=
  (ea.toNat < 0x2000 ∨ (0x6000 ≤ ea.toNat ∧ ea.toNat < 0x8000) →
    readValue ea t = v ∧ memoryUnchangedExcept ea s t ∧ mapperUnchanged s t) ∧
  (0x2000 ≤ ea.toNat ∧ ea.toNat < 0x6000 → memoryUnchanged s t ∧ mapperUnchanged s t) ∧
  (0x8000 ≤ ea.toNat →
    t.ram = s.ram ∧ t.prgRam = s.prgRam ∧ t.cart = s.cart ∧
    (s.cart.mapper = .nrom → mapperUnchanged s t) ∧
    (s.cart.mapper = .sxrom →
      t.sxrom = sxromWrite ea v s.sxrom ∧ t.unromPrgBank = s.unromPrgBank ∧ t.cnromChrBank = s.cnromChrBank) ∧
    (s.cart.mapper = .unrom →
      t.sxrom = s.sxrom ∧ t.unromPrgBank.toNat = v.toNat % 8 ∧ t.cnromChrBank = s.cnromChrBank) ∧
    (s.cart.mapper = .cnrom →
      t.sxrom = s.sxrom ∧ t.unromPrgBank = s.unromPrgBank ∧ t.cnromChrBank.toNat = v.toNat % 4))

/-- The state after an exception is taken, written out: three bytes on the stack (the return address high byte first, then
P with B as given and bit 5 set), S down by three, I set, PC the word at the vector (60 R347; 49 R320). -/
def afterEntry (vector ret : Word) (brk : Bool) (s : State) : State :=
  let pushed := (s.p &&& 0xCF#8) ||| 0x20#8 ||| (if brk then 0x10#8 else 0x00#8)
  let lo := readValue vector s
  let hi := readValue (vector + 1#16) s
  { s with
    sp := s.sp - 3#8
    p := s.p ||| 0x04#8
    pc := mkWord hi lo
    ram := ((s.ram.write (0x100 + s.sp.toNat) (hiByte ret)).write (0x100 + (s.sp - 1#8).toNat) (loByte ret)).write
      (0x100 + (s.sp - 2#8).toNat) pushed
    bus :=
      [⟨.cpu, .read, vector + 1#16, hi⟩, ⟨.cpu, .read, vector, lo⟩,
       ⟨.cpu, .write, stackAddress (s.sp - 2#8), pushed⟩,
       ⟨.cpu, .write, stackAddress (s.sp - 1#8), loByte ret⟩,
       ⟨.cpu, .write, stackAddress s.sp, hiByte ret⟩] ++ s.bus }

/-- The state after a conditional branch (48 R300). `s.pc` is the address of the next instruction. -/
def branchOutcome (taken : Bool) (off : Byte) (s : State) : State :=
  let t := s.pc + sext16 off
  { s with
    pc := if taken then t else s.pc
    stepCycles := 2 + (if taken then 1 else 0) + (if taken && (hiByte s.pc != hiByte t) then 1 else 0) }

/-- The byte a read-modify-write instruction writes back, by arithmetic (46 R281 to R284; 47 R290, R291). -/
def modifyResult (mn : Mnemonic) (v : Byte) (carry : Bool) : Nat :=
  match mn with
  | .asl => v.toNat * 2 % 256
  | .lsr => v.toNat / 2
  | .rol => (v.toNat * 2 + carry.toNat) % 256
  | .ror => v.toNat / 2 + carry.toNat * 128
  | .inc => (v.toNat + 1) % 256
  | .dec => (v.toNat + 255) % 256
  | _ => v.toNat

/-- The carry flag it leaves: the bit shifted out, or the old carry for INC and DEC. -/
def modifyCarry (mn : Mnemonic) (v : Byte) (carry : Bool) : Bool :=
  match mn with
  | .asl | .rol => decide (128 ≤ v.toNat)
  | .lsr | .ror => decide (v.toNat % 2 = 1)
  | _ => carry

/-- The read-modify-write mnemonics (46, 47). -/
def modifyMnemonics : List Mnemonic := [.asl, .lsr, .rol, .ror, .inc, .dec]

/-- The flags an instruction may write, from the table of 10_state R38. -/
def flagsWritten : Mnemonic → List Flag
  | .lda | .ldx | .ldy | .tax | .tay | .txa | .tya | .tsx | .pla | .and | .ora | .eor => [.n, .z]
  | .inc | .dec | .inx | .iny | .dex | .dey => [.n, .z]
  | .adc | .sbc => [.n, .v, .z, .c]
  | .cmp | .cpx | .cpy | .asl | .lsr | .rol | .ror => [.n, .z, .c]
  | .bit => [.n, .v, .z]
  | .plp | .rti => [.n, .v, .b, .u, .d, .i, .z, .c]
  | .brk | .cli | .sei => [.i]
  | .clc | .sec => [.c]
  | .clv => [.v]
  | .cld | .sed => [.d]
  | .sta | .stx | .sty | .txs | .pha | .php | .bpl | .bmi | .bvc | .bvs | .bcc | .bcs | .bne | .beq => []
  | .jmp | .jsr | .rts | .nop | .unknown => []

/-- How many bus transactions an instruction makes after its own bytes are fetched: pointer reads, data reads, data writes,
stack bytes, vector bytes (20_memory R97, R98). OAM-DMA reads come on top. -/
def dataTransactions (i : Instr) : Nat :=
  let pointer := match i.mode with
    | .indirectX _ | .indirectY _ | .indirect _ => 2
    | _ => 0
  let data := match i.mode with
    | .implied | .accumulator | .immediate _ | .relative _ | .indirect _ => 0
    | _ => match i.mnemonic with
      | .jmp | .jsr => 0
      | .asl | .lsr | .rol | .ror | .inc | .dec => 2
      | _ => 1
  let stack := match i.mnemonic with
    | .pha | .php | .pla | .plp => 1
    | .jsr | .rts => 2
    | .rti => 3
    | .brk => 5
    | _ => 0
  pointer + data + stack

/-- The instructions that write A (10_state R31). -/
def writesA (i : Instr) : Bool :=
  [Mnemonic.lda, .txa, .tya, .pla, .adc, .sbc, .and, .ora, .eor].contains i.mnemonic ||
  ([Mnemonic.asl, .lsr, .rol, .ror].contains i.mnemonic && i.mode == .accumulator)

/-- The instructions that write X (10_state R32). -/
def writesX (i : Instr) : Bool := [Mnemonic.ldx, .tax, .tsx, .inx, .dex].contains i.mnemonic

/-- The instructions that write Y (10_state R32). -/
def writesY (i : Instr) : Bool := [Mnemonic.ldy, .tay, .iny, .dey].contains i.mnemonic

/-- The instructions that write S (10_state R42). -/
def writesS (i : Instr) : Bool :=
  [Mnemonic.txs, .pha, .php, .pla, .plp, .jsr, .rts, .brk, .rti].contains i.mnemonic

/-- The base cycles of an instruction that only reads its operand, by mode (30_encoding R177, R200). -/
def readCount : Mode → Nat
  | .immediate _ => 2
  | .zeroPage _ => 3
  | .zeroPageX _ | .zeroPageY _ => 4
  | .absolute _ | .absoluteX _ | .absoluteY _ => 4
  | .indirectX _ => 6
  | .indirectY _ => 5
  | .implied | .accumulator | .relative _ | .indirect _ => 0

/-- The cycles of a store, by mode (30_encoding R177, R200, R201). -/
def storeCount : Mode → Nat
  | .zeroPage _ => 3
  | .zeroPageX _ | .zeroPageY _ => 4
  | .absolute _ => 4
  | .absoluteX _ | .absoluteY _ => 5
  | .indirectX _ | .indirectY _ => 6
  | .implied | .accumulator | .immediate _ | .relative _ | .indirect _ => 0

/-- The cycles of a shift, rotate, increment or decrement of memory or A, by mode (30_encoding R177, R200, R201). -/
def modifyCount : Mode → Nat
  | .accumulator => 2
  | .zeroPage _ => 5
  | .zeroPageX _ => 6
  | .absolute _ => 6
  | .absoluteX _ => 7
  | .implied | .immediate _ | .zeroPageY _ | .absoluteY _ | .indirectX _ | .indirectY _ | .relative _ | .indirect _ => 0

/-- The base cycle count of a mnemonic in a mode, as the cells of 30_encoding R177 give it (R200). A mode that the mnemonic
does not have counts 0, and so does an illegal byte. -/
def baseCount (mn : Mnemonic) (m : Mode) : Nat :=
  match mn with
  | .lda | .ldx | .ldy | .adc | .sbc | .and | .ora | .eor | .cmp | .cpx | .cpy | .bit => readCount m
  | .sta | .stx | .sty => storeCount m
  | .asl | .lsr | .rol | .ror | .inc | .dec => modifyCount m
  | .tax | .tay | .txa | .tya | .tsx | .txs | .inx | .iny | .dex | .dey => 2
  | .clc | .sec | .cli | .sei | .clv | .cld | .sed | .nop => 2
  | .bpl | .bmi | .bvc | .bvs | .bcc | .bcs | .bne | .beq => 2
  | .pha | .php => 3
  | .pla | .plp => 4
  | .jmp => match m with
    | .indirect _ => 5
    | _ => 3
  | .jsr | .rts | .rti => 6
  | .brk => 7
  | .unknown => 0

/-- Whether an instruction's branch is taken (48 R300 to R308). -/
def branchTaken (i : Instr) (s : State) : Bool :=
  match i.mnemonic with
  | .bpl => !s.flag .n
  | .bmi => s.flag .n
  | .bvc => !s.flag .v
  | .bvs => s.flag .v
  | .bcc => !s.flag .c
  | .bcs => s.flag .c
  | .bne => !s.flag .z
  | .beq => s.flag .z
  | _ => false

end Sys2Proof.Machine
end

