-- ==== Sys2Proof/Certificates/Slice0/Obligations.lean ====
section
/-! DEFINITION. The statements of this row for the provers. Each docstring names the rules of spec/ a statement formalises.
`exec i s` runs an instruction in the state after its own bytes are fetched, so `s.pc` is the address of the next
instruction. `bus`, the log of bus transactions, newest first, and `draws` are the model's own fields (log entries 2 and 3). -/

open Sys2Proof
open Sys2Proof.Machine

/-! Encoding and decoding. -/

/-- 30_encoding R170, R173, R177, R178: decoding the bytes of a well-formed instruction gives it back with every operand,
and leaves the bytes after it. -/
def Obligations.DecodeInvertsEncode : Prop :=
  ∀ (i : Instr) (rest : List Byte), i.wellFormed = true → decode (encode i ++ rest) = .ok (i, rest)

/-- 30_encoding R170, R175, R178: bytes that decode are the encoding of the instruction they decode to, so no bit of an
encoding is ignored and no two encodings share an instruction. -/
def Obligations.EncodeInvertsDecode : Prop :=
  ∀ (bytes : List Byte) (i : Instr) (rest : List Byte),
    decode bytes = .ok (i, rest) → bytes = encode i ++ rest ∧ i.wellFormed = true

/-- 30_encoding R175, R179: 105 distinct bytes are illegal and read no operand byte; every other byte decodes to a documented
instruction whose opcode is that byte, whatever the operand bytes. -/
def Obligations.DecodeSeparatesDocumentedFromIllegal : Prop :=
  illegalOpcodes.length = 105 ∧ illegalOpcodes.Nodup ∧
  ∀ op b1 b2 : Byte,
    (op ∈ illegalOpcodes → assemble op b1 b2 = .unknown op ∧ operandCount (cellOf op) = 0) ∧
    (op ∉ illegalOpcodes →
      (assemble op b1 b2).mnemonic ≠ .unknown ∧ (assemble op b1 b2).opcode = op ∧
      (encode (assemble op b1 b2)).length = 1 + operandCount (cellOf op))

/-- 30_encoding R177, R178, R91: words written out from the opcode map decode to what they stand for. -/
def Obligations.SampleWordsDecode : Prop :=
  decode [0xA9#8, 0x00#8] = .ok (.ldaImm 0x00#8, []) ∧
  decode [0x69#8, 0x50#8] = .ok (.adcImm 0x50#8, []) ∧
  decode [0xF0#8, 0x02#8] = .ok (.beq 0x02#8, []) ∧
  decode [0x6C#8, 0xFF#8, 0x02#8] = .ok (.jmpInd 0x02FF#16, []) ∧
  decode [0x96#8, 0x10#8] = .ok (.stxZpY 0x10#8, []) ∧
  decode [0xB1#8, 0x20#8, 0xEA#8] = .ok (.ldaIndY 0x20#8, [0xEA#8]) ∧
  decode [0x7E#8, 0x00#8, 0x02#8] = .ok (.rorAbsX 0x0200#16, []) ∧
  decode [0x02#8] = .ok (.unknown 0x02#8, [])

/-! The step. -/

/-- 30_encoding R172, R173: when the machine runs, no interrupt is to be taken, and the bytes fetched from PC on are those of
a well-formed instruction, the step is the meaning of that instruction in the state after the fetches, which differs from the
state before them in PC (past the instruction), in the log (one read a byte) and in the draw counter alone. -/
def Obligations.StepRunsFetchedInstruction : Prop :=
  ∀ (s : State) (i : Instr),
    s.halted = .running → s.nmiPending = false → (s.irqPending = false ∨ s.flag .i = true) → i.wellFormed = true →
    (fetchBytes (encode i).length s).1 = encode i →
    let s1 := (fetchBytes (encode i).length s).2
    step s = exec i s1 ∧
      s1 = { s with pc := s.pc + BitVec.ofNat 16 (encode i).length, bus := s1.bus, draws := s1.draws } ∧
      s1.bus.length = s.bus.length + (encode i).length

/-- 30_encoding R171, 10_state R44: n fetches at addresses that are not device ports return the bytes at PC, PC + 1, ...
(wrapping modulo 65 536), record one CPU read for each in that order, advance PC by n and change nothing else. -/
def Obligations.FetchReadsBytesAtPc : Prop :=
  ∀ (n : Nat) (s : State), (∀ k, k < n → isPort (s.pc + BitVec.ofNat 16 k) = false) →
    (fetchBytes n s).1 = (List.range n).map (fun k => readValue (s.pc + BitVec.ofNat 16 k) s) ∧
    (fetchBytes n s).2 =
      { s with
        pc := s.pc + BitVec.ofNat 16 n
        bus := ((List.range n).map (fun k =>
          (⟨.cpu, .read, s.pc + BitVec.ofNat 16 k, readValue (s.pc + BitVec.ofNat 16 k) s⟩ : BusEvent))).reverse ++ s.bus }

/-- 60_exceptions R347 to R349: with NMI pending a running machine's step is the NMI entry, whatever else is pending and
whatever P.I holds; with IRQ alone pending it is the IRQ entry when P.I = 0 and the fetched instruction when P.I = 1. -/
def Obligations.InterruptEntrySteps : Prop :=
  ∀ s : State, s.halted = .running →
    (s.nmiPending = true →
      step s = .next { afterEntry 0xFFFA#16 s.pc false s with stepCycles := 7, nmiPending := false }) ∧
    (s.nmiPending = false → s.irqPending = true → s.flag .i = false →
      step s = .next { afterEntry 0xFFFE#16 s.pc false s with stepCycles := 7, irqPending := false }) ∧
    (s.nmiPending = false → s.irqPending = true → s.flag .i = true →
      step s = exec (fetchInstr s).1 (fetchInstr s).2)

/-- 60_exceptions R341 to R344; 70 R386: a completed step sets no latch; it clears the NMI latch exactly when it was set, and
the IRQ latch exactly when it was set, NMI was not pending and P.I was 0. On a running machine an assertion sets its latch and
changes nothing else, so that one already set stays as it is and the state with it; a reset clears both. -/
def Obligations.LatchesSetByAssertionClearedByServiceOrReset : Prop :=
  (∀ s t : State, step s = .next t →
    t.nmiPending = false ∧
    t.irqPending = (s.irqPending && (s.nmiPending || s.flag .i))) ∧
  ∀ s : State, s.halted = .running →
    hostMove .assertNmi s = .next { s with nmiPending := true } ∧
    hostMove .assertIrq s = .next { s with irqPending := true } ∧
    (s.nmiPending = true → hostMove .assertNmi s = .next s) ∧
    (s.irqPending = true → hostMove .assertIrq s = .next s) ∧
    ∃ t, hostMove .reset s = .next t ∧ t.nmiPending = false ∧ t.irqPending = false

/-- 60_exceptions R360, R362; 30_encoding R179: an illegal opcode byte at PC stops the machine: the report names PC and the
byte; the state it leaves (which the model carries in the fault, log entry 6) has PC at the opcode, `halted` set, the opcode
fetch in the log, and nothing else changed: no operand byte read, no cycle count (the field `stepCycles` keeps its value, log
entry 20). The meaning of the instruction is that stop in every state. -/
def Obligations.IllegalOpcodeHalts : Prop :=
  ∀ (s : State) (op : Byte), op ∈ illegalOpcodes →
    exec (.unknown op) s =
      .fault (.unknownOpcode (s.pc - 1#16) op { s with pc := s.pc - 1#16, halted := .halted (s.pc - 1#16) op }) ∧
    (s.halted = .running → s.nmiPending = false → (s.irqPending = false ∨ s.flag .i = true) → readValue s.pc s = op →
      step s =
        .fault (.unknownOpcode s.pc op
          { s with
            halted := .halted s.pc op
            bus := ⟨.cpu, .read, s.pc, op⟩ :: s.bus
            draws := if isPort s.pc then s.draws + 1 else s.draws }))

/-- 60_exceptions R361; 70 R386: on a halted machine a step and a reset are no move, an assertion has no effect, and no run
of one step or more completes. -/
def Obligations.HaltedMachineNeverSteps : Prop :=
  ∀ (s : State) (pc : Word) (op : Byte), s.halted = .halted pc op →
    hostMove .step s = .fault (.machineHalted pc op) ∧ hostMove .reset s = .fault (.machineHalted pc op) ∧
    hostMove .assertNmi s = .next s ∧ hostMove .assertIrq s = .next s ∧
    ∀ n, Host.Core.run Sys2Proof.core (n + 1) s = .fault (.machineHalted pc op)

/-! Exceptions and returns. -/

/-- 49_system_flags R320: BRK. `s.pc` is the address of BRK plus 1. -/
def Obligations.BrkTakesTheTrap : Prop :=
  Instr.brk.opcode = 0x00#8 ∧
  ∀ s : State, exec .brk s = .next { afterEntry 0xFFFE#16 (s.pc + 1#16) true s with stepCycles := 7 }

/-- 49_system_flags R321: RTI pulls P (B forced 0, bit 5 forced 1), then PC low, then PC high; no 1 is added. The order of the two
PC pulls is an inference that the spec marks as its own (from R320, R348 and R41). -/
def Obligations.RtiRestoresStatusAndPc : Prop :=
  Instr.rti.opcode = 0x40#8 ∧
  ∀ s : State,
    let v (k : Nat) := s.ram.read (0x100 + (s.sp + BitVec.ofNat 8 k).toNat)
    let e (k : Nat) : BusEvent := ⟨.cpu, .read, stackAddress (s.sp + BitVec.ofNat 8 k), v k⟩
    exec .rti s =
      .next { s with
        p := (v 1 &&& 0xCF#8) ||| 0x20#8
        pc := mkWord (v 3) (v 2)
        sp := s.sp + 3#8
        stepCycles := 6
        bus := [e 3, e 2, e 1] ++ s.bus }

/-- 60_exceptions R351; 49_system_flags R320, R321: RTI right after an interrupt entry or a BRK gives back P and S, with PC
the interrupted address, or the address after BRK's padding byte; A, X and Y are as before. -/
def Obligations.RtiUndoesExceptionEntry : Prop :=
  ∀ s : State, s.Inv →
    (∃ t, exec .rti (interruptEntry Config.nmiVector s) = .next t ∧
      t.p = s.p ∧ t.pc = s.pc ∧ t.sp = s.sp ∧ t.a = s.a ∧ t.x = s.x ∧ t.y = s.y) ∧
    (∃ t, exec .rti (interruptEntry Config.irqVector s) = .next t ∧
      t.p = s.p ∧ t.pc = s.pc ∧ t.sp = s.sp ∧ t.a = s.a ∧ t.x = s.x ∧ t.y = s.y) ∧
    (∃ u t, exec .brk s = .next u ∧ exec .rti u = .next t ∧
      t.p = s.p ∧ t.pc = s.pc + 1#16 ∧ t.sp = s.sp ∧ t.a = s.a ∧ t.x = s.x ∧ t.y = s.y)

/-! Control transfer. -/

/-- 48_control_transfer R300 to R308: the eight conditional branches. -/
def Obligations.BranchesFollowTheirFlag : Prop :=
  ∀ (off : Byte) (s : State),
    exec (.bpl off) s = .next (branchOutcome (!s.flag .n) off s) ∧
    exec (.bmi off) s = .next (branchOutcome (s.flag .n) off s) ∧
    exec (.bvc off) s = .next (branchOutcome (!s.flag .v) off s) ∧
    exec (.bvs off) s = .next (branchOutcome (s.flag .v) off s) ∧
    exec (.bcc off) s = .next (branchOutcome (!s.flag .c) off s) ∧
    exec (.bcs off) s = .next (branchOutcome (s.flag .c) off s) ∧
    exec (.bne off) s = .next (branchOutcome (!s.flag .z) off s) ∧
    exec (.beq off) s = .next (branchOutcome (s.flag .z) off s) ∧
    [encode (.bpl off), encode (.bmi off), encode (.bvc off), encode (.bvs off),
     encode (.bcc off), encode (.bcs off), encode (.bne off), encode (.beq off)] =
    [[0x10#8, off], [0x30#8, off], [0x50#8, off], [0x70#8, off],
     [0x90#8, off], [0xB0#8, off], [0xD0#8, off], [0xF0#8, off]]

/-- 48_control_transfer R310; 30_encoding R198: JMP Absolute, and JMP Indirect with the page-wrap bug, low byte read first.
The second pointer read sees the state after the first (it matters when the pointer lies in a device port window). -/
def Obligations.JumpSetsPc : Prop :=
  (∀ a, encode (.jmpAbs a) = [0x4C#8, loByte a, hiByte a]) ∧
  (∀ ptr, encode (.jmpInd ptr) = [0x6C#8, loByte ptr, hiByte ptr]) ∧
  (∀ (a : Word) (s : State), exec (.jmpAbs a) s = .next { s with pc := a, stepCycles := 3 }) ∧
  ∀ (ptr : Word) (s : State),
    let second := mkWord (hiByte ptr) (loByte ptr + 1#8)
    let s1 := (busRead .cpu ptr s).2
    let tlo := readValue ptr s
    let thi := readValue second s1
    ∃ t, exec (.jmpInd ptr) s = .next t ∧
      t = { s with pc := mkWord thi tlo, stepCycles := 5, bus := t.bus, draws := t.draws } ∧
      t.bus = ⟨.cpu, .read, second, thi⟩ :: ⟨.cpu, .read, ptr, tlo⟩ :: s.bus

/-- 48_control_transfer R311: JSR pushes PC - 1 high byte first and goes to its operand. `s.pc` is PC after the operand bytes
are fetched (log entry 24). -/
def Obligations.JsrPushesReturnAddress : Prop :=
  ∀ (a : Word) (s : State),
    encode (.jsr a) = [0x20#8, loByte a, hiByte a] ∧
    exec (.jsr a) s =
      .next { s with
        pc := a
        sp := s.sp - 2#8
        stepCycles := 6
        ram := (s.ram.write (0x100 + s.sp.toNat) (hiByte (s.pc - 1#16))).write (0x100 + (s.sp - 1#8).toNat)
          (loByte (s.pc - 1#16))
        bus := ⟨.cpu, .write, stackAddress (s.sp - 1#8), loByte (s.pc - 1#16)⟩ ::
          ⟨.cpu, .write, stackAddress s.sp, hiByte (s.pc - 1#16)⟩ :: s.bus }

/-- 48_control_transfer R312: RTS pulls the low byte, then the high byte, and adds 1. The order of the two pulls is an inference
that the spec marks as its own (from R311 and R41). -/
def Obligations.RtsReturnsPastTheCall : Prop :=
  Instr.rts.opcode = 0x60#8 ∧
  ∀ s : State,
    let lo := s.ram.read (0x100 + (s.sp + 1#8).toNat)
    let hi := s.ram.read (0x100 + (s.sp + 2#8).toNat)
    exec .rts s =
      .next { s with
        pc := mkWord hi lo + 1#16
        sp := s.sp + 2#8
        stepCycles := 6
        bus := ⟨.cpu, .read, stackAddress (s.sp + 2#8), hi⟩ :: ⟨.cpu, .read, stackAddress (s.sp + 1#8), lo⟩ :: s.bus }

/-- 48_control_transfer R311, R312: RTS after JSR returns to the instruction after the JSR with S as before. -/
def Obligations.RtsUndoesJsr : Prop :=
  ∀ (a : Word) (s : State), s.Inv →
    ∃ u t, exec (.jsr a) s = .next u ∧ u.pc = a ∧ exec .rts u = .next t ∧
      t.pc = s.pc ∧ t.sp = s.sp ∧ t.p = s.p ∧ t.a = s.a ∧ t.x = s.x ∧ t.y = s.y

/-! Operands. -/

/-- 30_encoding R186 to R194, R197, R199: the modes that read no pointer. -/
def Obligations.DirectModesResolve : Prop :=
  ∀ (s : State) (b : Byte) (a : Word),
    resolve .implied s = (.none, s) ∧
    resolve .accumulator s = (.acc, s) ∧
    resolve (.immediate b) s = (.imm b, s) ∧
    resolve (.zeroPage b) s = (.mem (BitVec.ofNat 16 b.toNat) false, s) ∧
    resolve (.zeroPageX b) s = (.mem (BitVec.ofNat 16 ((b.toNat + s.x.toNat) % 256)) false, s) ∧
    resolve (.zeroPageY b) s = (.mem (BitVec.ofNat 16 ((b.toNat + s.y.toNat) % 256)) false, s) ∧
    resolve (.absolute a) s = (.mem a false, s) ∧
    (let ea := BitVec.ofNat 16 (a.toNat + s.x.toNat)
     resolve (.absoluteX a) s = (.mem ea (decide (a.toNat / 256 ≠ ea.toNat / 256)), s)) ∧
    (let ea := BitVec.ofNat 16 (a.toNat + s.y.toNat)
     resolve (.absoluteY a) s = (.mem ea (decide (a.toNat / 256 ≠ ea.toNat / 256)), s)) ∧
    (let t := BitVec.ofInt 16 (s.pc.toNat + b.toInt)
     resolve (.relative b) s = (.target t (decide (s.pc.toNat / 256 ≠ t.toNat / 256)), s))

/-- 30_encoding R195, R196; 20_memory R107: the modes that read a zero-page pointer, low byte first, the second byte's
address wrapping in page 0; the log records the two reads and nothing else changes. -/
def Obligations.PointerModesResolve : Prop :=
  ∀ (s : State) (z : Byte),
    let word (q : Byte) : Word := mkWord (s.ram.read ((q.toNat + 1) % 256)) (s.ram.read q.toNat)
    let log (q : Byte) : List BusEvent :=
      ⟨.cpu, .read, zext16 (q + 1#8), s.ram.read ((q.toNat + 1) % 256)⟩ ::
      ⟨.cpu, .read, zext16 q, s.ram.read q.toNat⟩ :: s.bus
    resolve (.indirectX z) s = (.mem (word (z + s.x)) false, { s with bus := log (z + s.x) }) ∧
    (let ea := BitVec.ofNat 16 ((word z).toNat + s.y.toNat)
     resolve (.indirectY z) s =
      (.mem ea (decide ((word z).toNat / 256 ≠ ea.toNat / 256)), { s with bus := log z }))

/-- 30_encoding R185: the accessors. A load from memory is one bus read, a store to memory one bus write; an immediate is
loaded without an access and a store to it does nothing; the accumulator is A. -/
def Obligations.OperandAccessors : Prop :=
  ∀ (s : State) (b v : Byte) (ea : Word) (c : Bool),
    load .acc s = (s.a, s) ∧ load (.imm b) s = (b, s) ∧
    load (.mem ea c) s =
      (readValue ea s,
       { s with
         bus := ⟨.cpu, .read, ea, readValue ea s⟩ :: s.bus
         draws := if isPort ea then s.draws + 1 else s.draws }) ∧
    store .acc v s = { s with a := v } ∧ store (.imm b) v s = s ∧ store (.mem ea c) v s = busWrite ea v s

/-! Loads, stores, read-modify-write. -/

/-- 40_load_store R220, R221, R222: the register becomes the operand byte, Z and N follow it, nothing else changes. -/
def Obligations.LoadsSetRegisterAndNZ : Prop :=
  ∀ (i : Instr) (s : State),
    let v := operandByte i.mode s
    let o := afterLoad i.mode s
    let n := cyclesOf i.opcode (resolve i.mode s).1.crossed false
    (i.mnemonic = .lda →
      i.opcode ∈ [0xA9#8, 0xA5#8, 0xB5#8, 0xAD#8, 0xBD#8, 0xB9#8, 0xA1#8, 0xB1#8] ∧
      ∃ t, exec i s = .next t ∧ t.a = v ∧ nzFlags v s t ∧ memoryUnchanged s t ∧
        t = { s with a := t.a, p := t.p, stepCycles := n, bus := o.bus, draws := o.draws }) ∧
    (i.mnemonic = .ldx →
      i.opcode ∈ [0xA2#8, 0xA6#8, 0xB6#8, 0xAE#8, 0xBE#8] ∧
      ∃ t, exec i s = .next t ∧ t.x = v ∧ nzFlags v s t ∧ memoryUnchanged s t ∧
        t = { s with x := t.x, p := t.p, stepCycles := n, bus := o.bus, draws := o.draws }) ∧
    (i.mnemonic = .ldy →
      i.opcode ∈ [0xA0#8, 0xA4#8, 0xB4#8, 0xAC#8, 0xBC#8] ∧
      ∃ t, exec i s = .next t ∧ t.y = v ∧ nzFlags v s t ∧ memoryUnchanged s t ∧
        t = { s with y := t.y, p := t.p, stepCycles := n, bus := o.bus, draws := o.draws })

/-- 40_load_store R223, R224, R225; 20_memory R98: one bus write of the register at the effective address, no read of it, no
flag and no register changed; what the write does follows the address decode. The effective address is the one `resolve`
gives the instruction's mode, the function the meaning uses. At 0x4014 the write is followed by the DMA reads (R82). -/
def Obligations.StoresWriteTheEffectiveAddress : Prop :=
  ∀ (i : Instr) (s : State), (i.mnemonic = .sta ∨ i.mnemonic = .stx ∨ i.mnemonic = .sty) → s.Inv →
    let v := if i.mnemonic = .sta then s.a else if i.mnemonic = .stx then s.x else s.y
    i.opcode ∈ [0x85#8, 0x95#8, 0x8D#8, 0x9D#8, 0x99#8, 0x81#8, 0x91#8, 0x86#8, 0x96#8, 0x8E#8, 0x84#8, 0x94#8, 0x8C#8] ∧
    ∃ ea crossed t, (resolve i.mode s).1 = .mem ea crossed ∧ exec i s = .next t ∧ storeEffect ea v s t ∧
      t = { s with
        ram := t.ram, prgRam := t.prgRam, sxrom := t.sxrom, unromPrgBank := t.unromPrgBank,
        cnromChrBank := t.cnromChrBank, bus := t.bus, draws := t.draws, stepCycles := cyclesOf i.opcode false false } ∧
      (ea ≠ 0x4014#16 → t.bus = ⟨.cpu, .write, ea, v⟩ :: (resolve i.mode s).2.bus) ∧
      (ea = 0x4014#16 →
        t.bus.drop 256 = ⟨.cpu, .write, ea, v⟩ :: (resolve i.mode s).2.bus ∧
        ∀ e ∈ t.bus.take 256, e.master = .dma ∧ e.access = .read)

/-- 46_shift_rotate R280 to R284 and 47_inc_dec R290, R291 on memory: one read and one write of the effective address, in
that order, at 0x4014 followed by the DMA reads (R82); the byte written, C, Z and N as the arithmetic says; no other flag and no
register changed. -/
def Obligations.ReadModifyWriteOnMemory : Prop :=
  ∀ (i : Instr) (s : State), i.mnemonic ∈ modifyMnemonics → i.mode ≠ .accumulator → s.Inv →
    let v := operandByte i.mode s
    let r := BitVec.ofNat 8 (modifyResult i.mnemonic v (s.flag .c))
    ∃ ea crossed t, (resolve i.mode s).1 = .mem ea crossed ∧ exec i s = .next t ∧ storeEffect ea r s t ∧
      t = { s with
        p := t.p, ram := t.ram, prgRam := t.prgRam, sxrom := t.sxrom, unromPrgBank := t.unromPrgBank,
        cnromChrBank := t.cnromChrBank, bus := t.bus, draws := t.draws, stepCycles := cyclesOf i.opcode false false } ∧
      t.flag .c = modifyCarry i.mnemonic v (s.flag .c) ∧
      t.flag .z = (r == 0#8) ∧ t.flag .n = r.getLsbD 7 ∧
      (∀ f, f ≠ .c → f ≠ .z → f ≠ .n → t.flag f = s.flag f) ∧
      (ea ≠ 0x4014#16 →
        t.bus = ⟨.cpu, .write, ea, r⟩ :: ⟨.cpu, .read, ea, v⟩ :: (resolve i.mode s).2.bus) ∧
      (ea = 0x4014#16 →
        t.bus.drop 256 = ⟨.cpu, .write, ea, r⟩ :: ⟨.cpu, .read, ea, v⟩ :: (resolve i.mode s).2.bus ∧
        ∀ e ∈ t.bus.take 256, e.master = .dma ∧ e.access = .read)

/-- 46_shift_rotate R280 to R284 in Accumulator mode: A and the flags C, Z and N, no bus access. -/
def Obligations.ShiftsOnAccumulator : Prop :=
  ∀ (i : Instr) (s : State), i ∈ [Instr.aslAcc, .lsrAcc, .rolAcc, .rorAcc] →
    let r := BitVec.ofNat 8 (modifyResult i.mnemonic s.a (s.flag .c))
    ∃ t, exec i s = .next t ∧ t.a = r ∧
      t.flag .c = modifyCarry i.mnemonic s.a (s.flag .c) ∧
      t.flag .z = (r == 0#8) ∧ t.flag .n = r.getLsbD 7 ∧
      (∀ f, f ≠ .c → f ≠ .z → f ≠ .n → t.flag f = s.flag f) ∧ memoryUnchanged s t ∧
      t = { s with a := t.a, p := t.p, stepCycles := 2 }

/-! Arithmetic, logic, compares. -/

/-- 43_arithmetic R250, R251: A + M + C modulo 256; C is the unsigned overflow, V the signed overflow. -/
def Obligations.AdcAddsWithCarry : Prop :=
  ∀ (i : Instr) (s : State), i.mnemonic = .adc →
    let m := operandByte i.mode s
    let o := afterLoad i.mode s
    let sum := s.a.toNat + m.toNat + (s.flag .c).toNat
    let signed := s.a.toInt + m.toInt + (s.flag .c).toNat
    i.opcode ∈ [0x69#8, 0x65#8, 0x75#8, 0x6D#8, 0x7D#8, 0x79#8, 0x61#8, 0x71#8] ∧
    ∃ t, exec i s = .next t ∧ t.a.toNat = sum % 256 ∧
      t.flag .c = decide (255 < sum) ∧ t.flag .v = decide (signed < -128 ∨ 127 < signed) ∧
      t.flag .v = (((s.a ^^^ t.a) &&& (m ^^^ t.a) &&& 0x80#8) != 0#8) ∧
      t.flag .z = (t.a == 0#8) ∧ t.flag .n = t.a.getLsbD 7 ∧
      (∀ f, f ≠ .c → f ≠ .v → f ≠ .z → f ≠ .n → t.flag f = s.flag f) ∧ memoryUnchanged s t ∧
      t = { s with
        a := t.a, p := t.p, bus := o.bus, draws := o.draws
        stepCycles := cyclesOf i.opcode (resolve i.mode s).1.crossed false }

/-- 43_arithmetic R252: A - M - (1 - C) modulo 256; C is 1 exactly when there is no borrow, V the signed overflow, computed
from M complemented. -/
def Obligations.SbcSubtractsWithBorrow : Prop :=
  ∀ (i : Instr) (s : State), i.mnemonic = .sbc →
    let m := operandByte i.mode s
    let o := afterLoad i.mode s
    let borrow := 1 - (s.flag .c).toNat
    let signed := s.a.toInt - m.toInt - borrow
    i.opcode ∈ [0xE9#8, 0xE5#8, 0xF5#8, 0xED#8, 0xFD#8, 0xF9#8, 0xE1#8, 0xF1#8] ∧
    ∃ t, exec i s = .next t ∧ t.a.toNat = (s.a.toNat + 256 - m.toNat - borrow) % 256 ∧
      t.flag .c = decide (m.toNat + borrow ≤ s.a.toNat) ∧ t.flag .v = decide (signed < -128 ∨ 127 < signed) ∧
      t.flag .v = (((s.a ^^^ t.a) &&& ((m ^^^ 0xFF#8) ^^^ t.a) &&& 0x80#8) != 0#8) ∧
      t.flag .z = (t.a == 0#8) ∧ t.flag .n = t.a.getLsbD 7 ∧
      (∀ f, f ≠ .c → f ≠ .v → f ≠ .z → f ≠ .n → t.flag f = s.flag f) ∧ memoryUnchanged s t ∧
      t = { s with
        a := t.a, p := t.p, bus := o.bus, draws := o.draws
        stepCycles := cyclesOf i.opcode (resolve i.mode s).1.crossed false }

/-- 10_state R36; 00_scope R3: the Decimal flag influences nothing but what is pushed and restored. Two runs of an
instruction (none of those that push, restore or write P.D) that differ in P.D only end in states that differ in P.D
only. -/
def Obligations.DecimalFlagInfluencesNothing : Prop :=
  ∀ (i : Instr) (s : State) (d : Bool),
    i.mnemonic ∉ [Mnemonic.php, .brk, .plp, .rti, .cld, .sed, .unknown] →
    ∃ t, exec i s = .next t ∧ exec i (s.withFlag .d d) = .next (t.withFlag .d d)

/-- 44_logical R260, R261, R262. -/
def Obligations.LogicalOperationsOnA : Prop :=
  ∀ (i : Instr) (s : State), (i.mnemonic = .and ∨ i.mnemonic = .ora ∨ i.mnemonic = .eor) →
    let m := operandByte i.mode s
    let o := afterLoad i.mode s
    let r := if i.mnemonic = .and then s.a &&& m else if i.mnemonic = .ora then s.a ||| m else s.a ^^^ m
    (i.mnemonic = .and → i.opcode ∈ [0x29#8, 0x25#8, 0x35#8, 0x2D#8, 0x3D#8, 0x39#8, 0x21#8, 0x31#8]) ∧
    (i.mnemonic = .ora → i.opcode ∈ [0x09#8, 0x05#8, 0x15#8, 0x0D#8, 0x1D#8, 0x19#8, 0x01#8, 0x11#8]) ∧
    (i.mnemonic = .eor → i.opcode ∈ [0x49#8, 0x45#8, 0x55#8, 0x4D#8, 0x5D#8, 0x59#8, 0x41#8, 0x51#8]) ∧
    ∃ t, exec i s = .next t ∧ t.a = r ∧ nzFlags r s t ∧ memoryUnchanged s t ∧
      t = { s with
        a := t.a, p := t.p, bus := o.bus, draws := o.draws
        stepCycles := cyclesOf i.opcode (resolve i.mode s).1.crossed false }

/-- 45_compare_bit R270 to R273: C, Z and N from the register and the operand byte; nothing else is written. -/
def Obligations.ComparesSetCZN : Prop :=
  ∀ (i : Instr) (s : State), (i.mnemonic = .cmp ∨ i.mnemonic = .cpx ∨ i.mnemonic = .cpy) →
    let m := operandByte i.mode s
    let o := afterLoad i.mode s
    let r := if i.mnemonic = .cmp then s.a else if i.mnemonic = .cpx then s.x else s.y
    (i.mnemonic = .cmp → i.opcode ∈ [0xC9#8, 0xC5#8, 0xD5#8, 0xCD#8, 0xDD#8, 0xD9#8, 0xC1#8, 0xD1#8]) ∧
    (i.mnemonic = .cpx → i.opcode ∈ [0xE0#8, 0xE4#8, 0xEC#8]) ∧
    (i.mnemonic = .cpy → i.opcode ∈ [0xC0#8, 0xC4#8, 0xCC#8]) ∧
    ∃ t, exec i s = .next t ∧
      t.flag .c = decide (m.toNat ≤ r.toNat) ∧ t.flag .z = decide (r = m) ∧
      t.flag .n = decide (128 ≤ (r.toNat + 256 - m.toNat) % 256) ∧
      (∀ f, f ≠ .c → f ≠ .z → f ≠ .n → t.flag f = s.flag f) ∧ memoryUnchanged s t ∧
      t = { s with
        p := t.p, bus := o.bus, draws := o.draws
        stepCycles := cyclesOf i.opcode (resolve i.mode s).1.crossed false }

/-- 45_compare_bit R274: Z from A and M, N and V from M alone. -/
def Obligations.BitTestsMemory : Prop :=
  ∀ (i : Instr) (s : State), i.mnemonic = .bit →
    let m := operandByte i.mode s
    let o := afterLoad i.mode s
    i.opcode ∈ [0x24#8, 0x2C#8] ∧
    ∃ t, exec i s = .next t ∧
      t.flag .z = ((s.a &&& m) == 0#8) ∧ t.flag .n = m.getLsbD 7 ∧ t.flag .v = m.getLsbD 6 ∧
      (∀ f, f ≠ .z → f ≠ .n → f ≠ .v → t.flag f = s.flag f) ∧ memoryUnchanged s t ∧
      t = { s with p := t.p, bus := o.bus, draws := o.draws, stepCycles := cyclesOf i.opcode false false }

/-! Instructions without a memory operand. -/

/-- 41_transfer R230 to R235: the destination register takes the source, Z and N follow it (TXS writes no flag). -/
def Obligations.TransfersCopyRegisters : Prop :=
  [Instr.tax.opcode, Instr.tay.opcode, Instr.txa.opcode, Instr.tya.opcode, Instr.tsx.opcode, Instr.txs.opcode] =
    [0xAA#8, 0xA8#8, 0x8A#8, 0x98#8, 0xBA#8, 0x9A#8] ∧
  ∀ s : State,
    (∃ t, exec .tax s = .next t ∧ nzFlags s.a s t ∧ t = { s with x := s.a, p := t.p, stepCycles := 2 }) ∧
    (∃ t, exec .tay s = .next t ∧ nzFlags s.a s t ∧ t = { s with y := s.a, p := t.p, stepCycles := 2 }) ∧
    (∃ t, exec .txa s = .next t ∧ nzFlags s.x s t ∧ t = { s with a := s.x, p := t.p, stepCycles := 2 }) ∧
    (∃ t, exec .tya s = .next t ∧ nzFlags s.y s t ∧ t = { s with a := s.y, p := t.p, stepCycles := 2 }) ∧
    (∃ t, exec .tsx s = .next t ∧ nzFlags s.sp s t ∧ t = { s with x := s.sp, p := t.p, stepCycles := 2 }) ∧
    exec .txs s = .next { s with sp := s.x, stepCycles := 2 }

/-- 47_inc_dec R292 to R295: X or Y plus or minus 1 modulo 256, Z and N of the result. -/
def Obligations.IndexIncrementsAndDecrements : Prop :=
  [Instr.inx.opcode, Instr.iny.opcode, Instr.dex.opcode, Instr.dey.opcode] = [0xE8#8, 0xC8#8, 0xCA#8, 0x88#8] ∧
  ∀ s : State,
    (∃ t, exec .inx s = .next t ∧ t.x.toNat = (s.x.toNat + 1) % 256 ∧ nzFlags t.x s t ∧
      t = { s with x := t.x, p := t.p, stepCycles := 2 }) ∧
    (∃ t, exec .iny s = .next t ∧ t.y.toNat = (s.y.toNat + 1) % 256 ∧ nzFlags t.y s t ∧
      t = { s with y := t.y, p := t.p, stepCycles := 2 }) ∧
    (∃ t, exec .dex s = .next t ∧ t.x.toNat = (s.x.toNat + 255) % 256 ∧ nzFlags t.x s t ∧
      t = { s with x := t.x, p := t.p, stepCycles := 2 }) ∧
    (∃ t, exec .dey s = .next t ∧ t.y.toNat = (s.y.toNat + 255) % 256 ∧ nzFlags t.y s t ∧
      t = { s with y := t.y, p := t.p, stepCycles := 2 })

/-- 49_system_flags R322 to R329: one flag written, nothing else but the cycle count; NOP writes none. -/
def Obligations.FlagOperationsWriteOneFlag : Prop :=
  [Instr.clc.opcode, Instr.sec.opcode, Instr.cli.opcode, Instr.sei.opcode, Instr.clv.opcode, Instr.cld.opcode,
   Instr.sed.opcode, Instr.nop.opcode] = [0x18#8, 0x38#8, 0x58#8, 0x78#8, 0xB8#8, 0xD8#8, 0xF8#8, 0xEA#8] ∧
  ∀ s : State,
    (∀ e ∈ [(Instr.clc, Flag.c, false), (.sec, .c, true), (.cli, .i, false), (.sei, .i, true), (.clv, .v, false),
        (.cld, .d, false), (.sed, .d, true)],
      ∃ t, exec e.1 s = .next t ∧ t.flag e.2.1 = e.2.2 ∧ (∀ f, f ≠ e.2.1 → t.flag f = s.flag f) ∧
        t = { s with p := t.p, stepCycles := 2 }) ∧
    exec .nop s = .next { s with stepCycles := 2 }

/-- 42_stack R240, R241; 10_state R39, R40: PHA and PHP write one byte at 0x0100 + S, then S decrements modulo 256; every
other byte of memory, and P itself, is kept. -/
def Obligations.PushesWriteTheStack : Prop :=
  Instr.pha.opcode = 0x48#8 ∧ Instr.php.opcode = 0x08#8 ∧
  ∀ s : State, s.Inv →
    ∀ e ∈ [(Instr.pha, s.a), (.php, s.p ||| 0x30#8)],
      ∃ t, exec e.1 s = .next t ∧
        t = { s with
          sp := s.sp - 1#8
          ram := s.ram.write (0x100 + s.sp.toNat) e.2
          bus := ⟨.cpu, .write, stackAddress s.sp, e.2⟩ :: s.bus
          stepCycles := 3 } ∧
        readValue (stackAddress s.sp) t = e.2 ∧ memoryUnchangedExcept (stackAddress s.sp) s t

/-- 42_stack R242, R243; 10_state R39, R41: PLA and PLP increment S modulo 256 and read at 0x0100 + S; PLP forces B to 0 and
bit 5 to 1. -/
def Obligations.PullsReadTheStack : Prop :=
  Instr.pla.opcode = 0x68#8 ∧ Instr.plp.opcode = 0x28#8 ∧
  ∀ s : State,
    let v := s.ram.read (0x100 + (s.sp + 1#8).toNat)
    let log : List BusEvent := ⟨.cpu, .read, stackAddress (s.sp + 1#8), v⟩ :: s.bus
    (∃ t, exec .pla s = .next t ∧ t.a = v ∧ nzFlags v s t ∧
      t = { s with a := t.a, p := t.p, sp := s.sp + 1#8, bus := log, stepCycles := 4 }) ∧
    (∃ t, exec .plp s = .next t ∧ t.flag .b = false ∧ t.flag .u = true ∧
      (∀ f, f ≠ .b → f ≠ .u → t.flag f = getFlag f v) ∧
      t = { s with p := t.p, sp := s.sp + 1#8, bus := log, stepCycles := 4 })

/-- 42_stack R242, R243 (source invariants 7 and 9): PHA, then any change of A, X, Y and P, then PLA restores A and sets Z and
N from it; PHP, then any such change, then PLP restores P. -/
def Obligations.PushThenPullRestores : Prop :=
  ∀ (s : State) (a x y p : Byte), s.Inv →
    (∃ u t, exec .pha s = .next u ∧ exec .pla { u with a := a, x := x, y := y, p := p } = .next t ∧
      t.a = s.a ∧ t.sp = s.sp ∧ t.flag .z = (s.a == 0#8) ∧ t.flag .n = s.a.getLsbD 7) ∧
    (∃ u t, exec .php s = .next u ∧ exec .plp { u with a := a, x := x, y := y, p := p } = .next t ∧
      t.p = s.p ∧ t.sp = s.sp)

/-! The bus and its devices. -/

/-- 20_memory R75: the four mirrors of system RAM read alike, and a write through any of them writes the one byte. -/
def Obligations.RamIsMirroredFourTimes : Prop :=
  ∀ (s : State) (a : Word), a.toNat ≤ 0x1FFF →
    readValue a s = s.ram.read (a.toNat % 0x800) ∧
    (∀ m ∈ [0x0800#16, 0x1000#16, 0x1800#16],
      readValue (a ^^^ m) s = readValue a s ∧
      ∀ v, (busWrite (a ^^^ m) v s).ram = (busWrite a v s).ram) ∧
    ∀ v, busWrite a v s =
      { s with ram := s.ram.write (a.toNat % 0x800) v, bus := ⟨.cpu, .write, a, v⟩ :: s.bus }

/-- 20_memory R74: an unmapped address reads 0x00 and a write to it is discarded; only the log records the access. -/
def Obligations.UnmappedReadsZeroDiscardsWrites : Prop :=
  ∀ (s : State) (a : Word) (m : Master) (v : Byte), 0x4020 ≤ a.toNat → a.toNat ≤ 0x5FFF →
    busRead m a s = (0x00#8, { s with bus := ⟨m, .read, a, 0x00#8⟩ :: s.bus }) ∧
    busWrite a v s = { s with bus := ⟨.cpu, .write, a, v⟩ :: s.bus }

/-- 20_memory R76 to R79, R81: an access in 0x2000 to 0x401F goes to the PPU (up to 0x3FFF and at 0x4014), to the APU (0x4000 to
0x4013 and 0x4015) or to the Input port (from 0x4016 on), and is an event with the raw address; a read returns the next draw and
uses it up, a write (but at 0x4014) changes no state of the block. -/
def Obligations.PortAccessesAreEventsAndDraws : Prop :=
  ∀ (s : State) (a : Word) (m : Master) (v : Byte), 0x2000 ≤ a.toNat → a.toNat ≤ 0x401F →
    isPort a = true ∧
    (a.toNat ≤ 0x3FFF ∨ a.toNat = 0x4014 → route a = .ppu) ∧
    (0x4000 ≤ a.toNat ∧ a.toNat ≤ 0x4013 ∨ a.toNat = 0x4015 → route a = .apu) ∧
    (0x4016 ≤ a.toNat → route a = .input) ∧
    busRead m a s =
      (Config.portByte s.draws,
       { s with draws := s.draws + 1, bus := ⟨m, .read, a, Config.portByte s.draws⟩ :: s.bus }) ∧
    (a ≠ 0x4014#16 → busWrite a v s = { s with bus := ⟨.cpu, .write, a, v⟩ :: s.bus })

/-- 20_memory R77, R82: a write of v to 0x4014 is followed by 256 DMA reads of the page v in increasing order; each is
decoded as a CPU read; no memory and no register changes. -/
def Obligations.OamDmaReadsOnePage : Prop :=
  ∀ (s : State) (v : Byte),
    let t := busWrite 0x4014#16 v s
    t = { s with bus := t.bus, draws := t.draws } ∧
    t.bus.length = s.bus.length + 257 ∧
    t.bus.drop 256 = ⟨.cpu, .write, 0x4014#16, v⟩ :: s.bus ∧
    ∀ k, k < 256 → ∃ b, t.bus[255 - k]? = some ⟨.dma, .read, mkWord v (BitVec.ofNat 8 k), b⟩ ∧
      (isPort (mkWord v (BitVec.ofNat 8 k)) = false → b = readValue (mkWord v (BitVec.ofNat 8 k)) s)

/-- 20_memory R97, R98: an instruction only adds to the log, and adds exactly as many transactions as its rules list, no
dummy read or write: pointer reads, data reads, data writes, stack and vector bytes as counted by `dataTransactions`, and the
256 DMA reads when it stores at 0x4014. -/
def Obligations.ExactBusTransactions : Prop :=
  ∀ (i : Instr) (s t : State), exec i s = .next t →
    let stores := i.mnemonic ∈ [Mnemonic.sta, .stx, .sty, .asl, .lsr, .rol, .ror, .inc, .dec]
    let dma := stores ∧ ∃ c, (resolve i.mode s).1 = .mem 0x4014#16 c
    ∃ new, t.bus = new ++ s.bus ∧
      (¬ dma → new.length = dataTransactions i) ∧ (dma → new.length = dataTransactions i + 256)

/-! The mappers. -/

/-- 20_memory R111, R115, R116, R148: NROM and CNROM program reads; PRG-RAM on every mapper; a write at 0x8000 or above on
NROM changes nothing. -/
def Obligations.NromAndCnromProgramSide : Prop :=
  ∀ (s : State) (a : Word),
    (0x6000 ≤ a.toNat → a.toNat < 0x8000 →
      readValue a s = s.prgRam.read (a.toNat % 0x2000) ∧
      ∀ v, prgStore a v s = { s with prgRam := s.prgRam.write (a.toNat % 0x2000) v }) ∧
    ((s.cart.mapper = .nrom ∨ s.cart.mapper = .cnrom) → 0x8000 ≤ a.toNat →
      (s.cart.prgBanks = 1 → readValue a s = s.cart.prgRom.read (a.toNat % 0x4000)) ∧
      (2 ≤ s.cart.prgBanks → readValue a s = s.cart.prgRom.read (a.toNat % 0x8000))) ∧
    (s.cart.mapper = .nrom → 0x8000 ≤ a.toNat → ∀ v, prgStore a v s = s) ∧
    (s.cart.mapper = .cnrom → 0x8000 ≤ a.toNat →
      ∀ v, prgStore a v s = { s with cnromChrBank := BitVec.ofNat 2 (v.toNat % 4) })

/-- 20_memory R141, R142, R143, R112: UNROM: PRG-RAM at 0x6000 to 0x7FFF, the bank latch's window at 0x8000 to 0xBFFF, the
last bank from 0xC000 itself on, and the latch written by any write at 0x8000 or above; a bank number beyond the ROM is taken
modulo its length, and PRG-ROM never changes. -/
def Obligations.UnromProgramSide : Prop :=
  ∀ (s : State) (a : Word), s.cart.mapper = .unrom → 1 ≤ s.cart.prgBanks →
    (0x6000 ≤ a.toNat → a.toNat < 0x8000 →
      readValue a s = s.prgRam.read (a.toNat % 0x2000) ∧
      ∀ v, prgStore a v s = { s with prgRam := s.prgRam.write (a.toNat % 0x2000) v }) ∧
    (0x8000 ≤ a.toNat → a.toNat < 0xC000 →
      readValue a s =
        s.cart.prgRom.read ((s.unromPrgBank.toNat * 0x4000 + a.toNat % 0x4000) % (s.cart.prgBanks * 0x4000))) ∧
    (0xC000 ≤ a.toNat → readValue a s = s.cart.prgRom.read ((s.cart.prgBanks - 1) * 0x4000 + a.toNat % 0x4000)) ∧
    (0x8000 ≤ a.toNat → ∀ v, prgStore a v s = { s with unromPrgBank := BitVec.ofNat 3 (v.toNat % 8) })

/-- 20_memory R128, R129, R130, R112: SxROM program reads in both PRG modes. The offset in the slot at 0xC000 is an inference that the
spec marks as its own (R130, from R129). -/
def Obligations.SxromProgramReads : Prop :=
  ∀ (s : State) (a : Word), s.cart.mapper = .sxrom → 1 ≤ s.cart.prgBanks → 0x8000 ≤ a.toNat →
    let size := s.cart.prgBanks * 0x4000
    let bank := s.sxrom.prgBank.toNat
    (s.sxrom.prgSize = .k32 →
      readValue a s = s.cart.prgRom.read ((bank / 2 * 0x8000 + a.toNat % 0x8000) % size)) ∧
    (s.sxrom.prgSize = .k16 → a.toNat < 0xC000 →
      readValue a s =
        s.cart.prgRom.read (((if s.sxrom.slotSelect then bank else 0) * 0x4000 + a.toNat % 0x4000) % size)) ∧
    (s.sxrom.prgSize = .k16 → 0xC000 ≤ a.toNat →
      readValue a s =
        s.cart.prgRom.read
          (((if s.sxrom.slotSelect then s.cart.prgBanks - 1 else bank) * 0x4000 + a.toNat % 0x4000) % size))

/-- 20_memory R122 to R127: five serial writes commit bit 0 of each, the first write's bit lowest, to the register the fifth
write's address chooses, and clear accumulator and count; the first four writes change nothing else. -/
def Obligations.SxromSerialLoadCommits : Prop :=
  ∀ (g : Sxrom) (a1 a2 a3 a4 a5 : Word) (v1 v2 v3 v4 v5 : Byte),
    g.writeCount = 0#3 → g.shiftAccumulator = 0#5 → 0x8000 ≤ a5.toNat →
    v1.getLsbD 7 = false → v2.getLsbD 7 = false → v3.getLsbD 7 = false → v4.getLsbD 7 = false → v5.getLsbD 7 = false →
    let g4 := sxromWrite a4 v4 (sxromWrite a3 v3 (sxromWrite a2 v2 (sxromWrite a1 v1 g)))
    let g5 := sxromWrite a5 v5 g4
    let n := v1.toNat % 2 + v2.toNat % 2 * 2 + v3.toNat % 2 * 4 + v4.toNat % 2 * 8 + v5.toNat % 2 * 16
    g4 = { g with shiftAccumulator := g4.shiftAccumulator, writeCount := 4#3 } ∧
    (a5.toNat ≤ 0x9FFF →
      g5 = { g with
        mirroring := [Mirroring.singleScreenLower, .singleScreenUpper, .vertical, .horizontal].getD (n % 4) .horizontal
        slotSelect := decide (n / 4 % 2 = 1)
        prgSize := if n / 8 % 2 = 1 then .k16 else .k32
        chrMode := if n / 16 = 1 then .k4 else .k8 }) ∧
    (0xA000 ≤ a5.toNat → a5.toNat ≤ 0xBFFF → g5 = { g with chrBank0 := BitVec.ofNat 5 n }) ∧
    (0xC000 ≤ a5.toNat → a5.toNat ≤ 0xDFFF → g5 = { g with chrBank1 := BitVec.ofNat 5 n }) ∧
    (0xE000 ≤ a5.toNat → g5 = { g with prgBank := BitVec.ofNat 4 (n % 16) })

/-- 20_memory R121, R135: a write with bit 7 set clears the serial load and fixes the last bank at 0xC000 to 0xFFFF, whatever
the bank register holds; no other SxROM register changes. The read is R135, which the spec marks as its own inference from R121
and R130. -/
def Obligations.SxromResetBitFixesLastBank : Prop :=
  ∀ (s : State) (a b : Word) (v : Byte), s.cart.mapper = .sxrom → 1 ≤ s.cart.prgBanks → 0x8000 ≤ a.toNat →
    v.getLsbD 7 = true → 0xC000 ≤ b.toNat →
    let t := busWrite a v s
    t.sxrom = { s.sxrom with shiftAccumulator := 0#5, writeCount := 0#3, prgSize := .k16, slotSelect := true } ∧
    readValue b t = s.cart.prgRom.read ((s.cart.prgBanks - 1) * 0x4000 + b.toNat % 0x4000)

/-- 20_memory R85, R86, R113, R117, R131 to R133, R144, R147: the CHR port and the mirroring output of the four mappers. -/
def Obligations.ChrPortTranslation : Prop :=
  ∀ (s : State) (a : Nat) (v : Byte),
    let index :=
      match s.cart.mapper with
      | .nrom | .unrom => a
      | .cnrom => s.cnromChrBank.toNat * 0x2000 + a
      | .sxrom =>
        match s.sxrom.chrMode with
        | .k8 => s.sxrom.chrBank0.toNat / 2 * 0x2000 + a
        | .k4 =>
          if a < 0x1000 then s.sxrom.chrBank0.toNat * 0x1000 + a % 0x1000
          else s.sxrom.chrBank1.toNat * 0x1000 + a % 0x1000
    (0x2000 ≤ a →
      chrLoad a s = .error (.chrAddressOutOfRange a) ∧ chrStore a v s = .error (.chrAddressOutOfRange a)) ∧
    (a < 0x2000 → 0 < s.cart.chrBanks →
      chrLoad a s = .ok (s.cart.chrRom.read (index % (s.cart.chrBanks * 0x2000))) ∧ chrStore a v s = .ok s) ∧
    (a < 0x2000 → s.cart.chrBanks = 0 →
      chrLoad a s = .ok (s.chrRam.read (index % 0x2000)) ∧
      chrStore a v s = .ok { s with chrRam := s.chrRam.write (index % 0x2000) v }) ∧
    mirroringOutput s = if s.cart.mapper = .sxrom then s.sxrom.mirroring else s.cart.headerMirroring.value

/-! Power-on, reset, the cartridge file. -/

/-- 10_state R51; 70 R380 to R383; 20_memory R157: power-on with a cartridge, and no machine without PRG-ROM. The two vector
reads in the log and the draw counter 0 are the model's own (log entries 2 and 3). -/
def Obligations.PowerOnState : Prop :=
  ∀ c : Cartridge,
    (c.prgBanks = 0 → powerOn c = .error .noPrgRom) ∧
    (1 ≤ c.prgBanks → ∃ s lo hi, powerOn c = .ok s ∧ lo = readValue 0xFFFC#16 s ∧ hi = readValue 0xFFFD#16 s ∧
      s = { a := 0x00#8, x := 0x00#8, y := 0x00#8, sp := 0xFD#8, p := 0x2C#8, pc := mkWord hi lo
            nmiPending := false, irqPending := false, halted := .running, stepCycles := 0
            ram := [], prgRam := [], chrRam := []
            sxrom :=
              { prgSize := .k16, chrMode := .k8, slotSelect := true, mirroring := c.headerMirroring.value
                chrBank0 := 0#5, chrBank1 := 0#5, prgBank := 0#4, shiftAccumulator := 0#5, writeCount := 0#3 }
            unromPrgBank := 0#3, cnromChrBank := 0#2, cart := c
            bus := [⟨.cpu, .read, 0xFFFD#16, hi⟩, ⟨.cpu, .read, 0xFFFC#16, lo⟩], draws := 0 })

/-- 70 R388: where the power-on reset vector stands in PRG-ROM on each mapper. -/
def Obligations.ResetVectorInPrgRom : Prop :=
  ∀ (c : Cartridge) (s : State), 1 ≤ c.prgBanks → powerOn c = .ok s →
    let word (i : Nat) : Word := mkWord (c.prgRom.read (i + 1)) (c.prgRom.read i)
    ((c.mapper = .nrom ∨ c.mapper = .cnrom) → c.prgBanks = 1 → s.pc = word 0x3FFC) ∧
    ((c.mapper = .nrom ∨ c.mapper = .cnrom) → 2 ≤ c.prgBanks → s.pc = word 0x7FFC) ∧
    ((c.mapper = .sxrom ∨ c.mapper = .unrom) → s.pc = word ((c.prgBanks - 1) * 0x4000 + 0x3FFC))

/-- 70 R383 to R387: a CPU reset of a running machine sets S, P.I and PC and clears the latches, makes the two vector reads,
and changes nothing else. -/
def Obligations.CpuResetSequence : Prop :=
  ∀ s : State, s.halted = .running →
    let lo := readValue 0xFFFC#16 s
    let hi := readValue 0xFFFD#16 s
    hostMove .reset s =
      .next { s with
        sp := 0xFD#8, p := s.p ||| 0x04#8, pc := mkWord hi lo, nmiPending := false, irqPending := false
        bus := ⟨.cpu, .read, 0xFFFD#16, hi⟩ :: ⟨.cpu, .read, 0xFFFC#16, lo⟩ :: s.bus }

/-- 20_memory R150 to R157: what a cartridge file gives. The order of the refusals is the model's own (log entry 18). -/
def Obligations.CartridgeFileInterpretation : Prop :=
  ∀ file : List Byte,
    let b (k : Nat) : Nat := (file.getD k 0#8).toNat
    let diskDude : Bool := (file.drop 7).take 9 == [0x44#8, 0x69#8, 0x73#8, 0x6B#8, 0x44#8, 0x75#8, 0x64#8, 0x65#8, 0x21#8]
    let mapper := (if diskDude then 0 else b 7 / 16 * 16) + b 6 / 16
    let start := 16 + if b 6 / 4 % 2 = 1 then 512 else 0
    let prg := b 4 * 0x4000
    let chr := b 5 * 0x2000
    (file.take 4 ≠ [0x4E#8, 0x45#8, 0x53#8, 0x1A#8] → loadCartridge file = .error .badMagic) ∧
    (file.take 4 = [0x4E#8, 0x45#8, 0x53#8, 0x1A#8] →
      (file.length < start + prg + chr → loadCartridge file = .error .truncatedFile) ∧
      (start + prg + chr ≤ file.length → 3 < mapper → loadCartridge file = .error (.unsupportedMapper mapper)) ∧
      (start + prg + chr ≤ file.length → mapper ≤ 3 → b 4 = 0 → loadCartridge file = .error .noPrgRom) ∧
      (start + prg + chr ≤ file.length → mapper ≤ 3 → b 4 ≠ 0 →
        ∃ c, loadCartridge file = .ok c ∧ c.Valid ∧
          c.mapper = [MapperKind.nrom, .sxrom, .unrom, .cnrom].getD mapper .nrom ∧
          c.prgBanks = b 4 ∧ c.chrBanks = b 5 ∧
          c.headerMirroring = (if b 6 % 2 = 1 then .vertical else .horizontal) ∧
          (∀ k, k < prg → c.prgRom.read k = file.getD (start + k) 0#8) ∧
          (∀ k, k < chr → c.chrRom.read k = file.getD (start + prg + k) 0#8)))

/-! Whole-machine properties. -/

/-- 10_state R34, R35; 20_memory R111 to R113, R120, R122: the invariant holds after power-on (of `State.reset`). -/
def Obligations.ResetStateMeetsInvariant : Prop := State.reset.Inv

/-- 10_state R34, R35; 20_memory R120, R122: every step keeps the invariant: P.U = 1 and P.B = 0, canonical memories within
their sizes, the serial count at most 4 with no accumulator bit above it, a valid cartridge. -/
def Obligations.EveryStepKeepsInvariant : Prop :=
  ∀ s t : State, s.Inv → step s = .next t → t.Inv

/-- 10_state R34, R35; 70 R400: every host move (a step, an assertion, a reset, a CHR access, a mirroring read) keeps the
invariant, from every state that has it; so does every sequence of them, in any order; and a machine powered on with a valid
cartridge has it. -/
def Obligations.EveryRunOfHostMovesKeepsInvariant : Prop :=
  (∀ (m : HostMove) (s t : State), s.Inv → hostMove m s = .next t → t.Inv) ∧
  (∀ (moves : List HostMove) (s t : State), s.Inv → runMoves moves s = .next t → t.Inv) ∧
  ∀ (c : Cartridge) (s : State), c.Valid → powerOn c = .ok s → s.Inv

/-- 10_state R49; 60_exceptions R353: the cartridge configuration never changes, so PRG-ROM and CHR-ROM are read-only; CHR-RAM
changes by the CHR port alone. -/
def Obligations.CartridgeNeverChanges : Prop :=
  ∀ (m : HostMove) (s t : State), hostMove m s = .next t →
    t.cart = s.cart ∧ ((∀ a v, m ≠ .chrStore a v) → t.chrRam = s.chrRam)

/-- 10_state R31, R32, R42: A, X, Y and S change only by the instructions the rules list. -/
def Obligations.RegistersChangeOnlyByTheirInstructions : Prop :=
  ∀ (i : Instr) (s t : State), exec i s = .next t →
    (writesA i = false → t.a = s.a) ∧ (writesX i = false → t.x = s.x) ∧ (writesY i = false → t.y = s.y) ∧
    (writesS i = false → t.sp = s.sp)

/-- 10_state R38: an instruction keeps every flag that the table does not list for it. -/
def Obligations.FlagsOutsideTheTableAreKept : Prop :=
  ∀ (i : Instr) (s t : State), exec i s = .next t → ∀ f, f ∉ flagsWritten i.mnemonic → t.flag f = s.flag f

/-- 30_encoding R177, R200 to R203; 60_exceptions R372: the cycle count of every instruction: the base count of each mnemonic in
each mode (`baseCount`), plus 1 for a page cross of an instruction that only reads, plus 1 for a taken branch and 1 more when
it crosses; and which instructions carry which penalty. -/
def Obligations.CycleCounts : Prop :=
  (∀ (i : Instr) (s t : State), exec i s = .next t →
    t.stepCycles = cyclesOf i.opcode (resolve i.mode s).1.crossed (branchTaken i s)) ∧
  (∀ (op : Byte) (crossed taken : Bool),
    let c := cellOf op
    cyclesOf op crossed taken =
      c.baseCycles + (if c.penalty = .readCross ∧ crossed then 1 else 0) + (if c.penalty = .branch ∧ taken then 1 else 0) +
      (if c.penalty = .branch ∧ taken ∧ crossed then 1 else 0)) ∧
  ∀ i : Instr, i.mnemonic ≠ .unknown →
    (cellOf i.opcode).baseCycles = baseCount i.mnemonic i.mode ∧
    ((cellOf i.opcode).penalty = .branch ↔
      i.mnemonic ∈ [Mnemonic.bpl, .bmi, .bvc, .bvs, .bcc, .bcs, .bne, .beq]) ∧
    ((cellOf i.opcode).penalty = .readCross ↔
      i.mnemonic ∈ [Mnemonic.lda, .ldx, .ldy, .eor, .and, .ora, .adc, .sbc, .cmp] ∧
      ((∃ a, i.mode = .absoluteX a) ∨ (∃ a, i.mode = .absoluteY a) ∨ ∃ z, i.mode = .indirectY z))

/-- 93_implementation_defined (Part 1, last paragraph): every documented instruction completes in every state, and a step
stops only at an illegal opcode byte or on a halted machine, never by a refusal. -/
def Obligations.EveryDocumentedInstructionCompletes : Prop :=
  (∀ (i : Instr) (s : State), i.mnemonic ≠ .unknown → ∃ t, exec i s = .next t) ∧
  (∀ (s : State) (r : Refusal), step s ≠ .refused r) ∧
  ∀ (s : State) (f : Fault), step s = .fault f →
    (∃ pc op, s.halted = .halted pc op ∧ f = .machineHalted pc op) ∨
    (∃ op final, op ∈ illegalOpcodes ∧ readValue s.pc s = op ∧ f = .unknownOpcode s.pc op final ∧
      final.halted = .halted s.pc op)
end

