-- ==== Sys2Proof/Laws/Dispatch.lean ====
section
/-! SUPPORT. exec as the spec writes it, `Execute(mnemonic, operand)` (30_encoding R172): the meaning of an instruction is the
shared operation of its mnemonic applied to its opcode byte and its addressing mode. Later proofs cite these lemmas
instead of splitting exec into its arms. -/

namespace Sys2Proof.Machine

/-- The operation of a mnemonic on an opcode byte and a mode. -/
def executeMnemonic (mn : Mnemonic) (op : Byte) (m : Mode) (s : State) : Host.Outcome State Fault Refusal :=
  match mn with
  | .lda => .next (ldaOp op m s)
  | .ldx => .next (ldxOp op m s)
  | .ldy => .next (ldyOp op m s)
  | .sta => .next (staOp op m s)
  | .stx => .next (stxOp op m s)
  | .sty => .next (styOp op m s)
  | .tax => .next (taxOp op m s)
  | .tay => .next (tayOp op m s)
  | .txa => .next (txaOp op m s)
  | .tya => .next (tyaOp op m s)
  | .tsx => .next (tsxOp op m s)
  | .txs => .next (txsOp op m s)
  | .pha => .next (phaOp op m s)
  | .php => .next (phpOp op m s)
  | .pla => .next (plaOp op m s)
  | .plp => .next (plpOp op m s)
  | .adc => .next (adcOp op m s)
  | .sbc => .next (sbcOp op m s)
  | .and => .next (andOp op m s)
  | .ora => .next (oraOp op m s)
  | .eor => .next (eorOp op m s)
  | .cmp => .next (cmpOp op m s)
  | .cpx => .next (cpxOp op m s)
  | .cpy => .next (cpyOp op m s)
  | .bit => .next (bitOp op m s)
  | .asl => .next (aslOp op m s)
  | .lsr => .next (lsrOp op m s)
  | .rol => .next (rolOp op m s)
  | .ror => .next (rorOp op m s)
  | .inc => .next (incOp op m s)
  | .dec => .next (decOp op m s)
  | .inx => .next (inxOp op m s)
  | .iny => .next (inyOp op m s)
  | .dex => .next (dexOp op m s)
  | .dey => .next (deyOp op m s)
  | .bpl => .next (bplOp op m s)
  | .bmi => .next (bmiOp op m s)
  | .bvc => .next (bvcOp op m s)
  | .bvs => .next (bvsOp op m s)
  | .bcc => .next (bccOp op m s)
  | .bcs => .next (bcsOp op m s)
  | .bne => .next (bneOp op m s)
  | .beq => .next (beqOp op m s)
  | .jmp => .next (jmpOp op m s)
  | .jsr => .next (jsrOp op m s)
  | .rts => .next (rtsOp op m s)
  | .brk => .next (brkOp op m s)
  | .rti => .next (rtiOp op m s)
  | .clc => .next (clcOp op m s)
  | .sec => .next (secOp op m s)
  | .cli => .next (cliOp op m s)
  | .sei => .next (seiOp op m s)
  | .clv => .next (clvOp op m s)
  | .cld => .next (cldOp op m s)
  | .sed => .next (sedOp op m s)
  | .nop => .next (nopOp op m s)
  | .unknown => execUnknown op s

/-- Every arm of exec is the operation of its mnemonic on its opcode and its mode. -/
theorem exec_eq (i : Instr) (s : State) : exec i s = executeMnemonic i.mnemonic i.opcode i.mode s := by
  cases i <;> rfl

theorem exec_lda {i : Instr} (h : i.mnemonic = .lda) (s : State) :
    exec i s = .next (ldaOp i.opcode i.mode s) := by rw [exec_eq, h]; rfl

theorem exec_ldx {i : Instr} (h : i.mnemonic = .ldx) (s : State) :
    exec i s = .next (ldxOp i.opcode i.mode s) := by rw [exec_eq, h]; rfl

theorem exec_ldy {i : Instr} (h : i.mnemonic = .ldy) (s : State) :
    exec i s = .next (ldyOp i.opcode i.mode s) := by rw [exec_eq, h]; rfl

theorem exec_sta {i : Instr} (h : i.mnemonic = .sta) (s : State) :
    exec i s = .next (staOp i.opcode i.mode s) := by rw [exec_eq, h]; rfl

theorem exec_stx {i : Instr} (h : i.mnemonic = .stx) (s : State) :
    exec i s = .next (stxOp i.opcode i.mode s) := by rw [exec_eq, h]; rfl

theorem exec_sty {i : Instr} (h : i.mnemonic = .sty) (s : State) :
    exec i s = .next (styOp i.opcode i.mode s) := by rw [exec_eq, h]; rfl

theorem exec_tax {i : Instr} (h : i.mnemonic = .tax) (s : State) :
    exec i s = .next (taxOp i.opcode i.mode s) := by rw [exec_eq, h]; rfl

theorem exec_tay {i : Instr} (h : i.mnemonic = .tay) (s : State) :
    exec i s = .next (tayOp i.opcode i.mode s) := by rw [exec_eq, h]; rfl

theorem exec_txa {i : Instr} (h : i.mnemonic = .txa) (s : State) :
    exec i s = .next (txaOp i.opcode i.mode s) := by rw [exec_eq, h]; rfl

theorem exec_tya {i : Instr} (h : i.mnemonic = .tya) (s : State) :
    exec i s = .next (tyaOp i.opcode i.mode s) := by rw [exec_eq, h]; rfl

theorem exec_tsx {i : Instr} (h : i.mnemonic = .tsx) (s : State) :
    exec i s = .next (tsxOp i.opcode i.mode s) := by rw [exec_eq, h]; rfl

theorem exec_txs {i : Instr} (h : i.mnemonic = .txs) (s : State) :
    exec i s = .next (txsOp i.opcode i.mode s) := by rw [exec_eq, h]; rfl

theorem exec_pha {i : Instr} (h : i.mnemonic = .pha) (s : State) :
    exec i s = .next (phaOp i.opcode i.mode s) := by rw [exec_eq, h]; rfl

theorem exec_php {i : Instr} (h : i.mnemonic = .php) (s : State) :
    exec i s = .next (phpOp i.opcode i.mode s) := by rw [exec_eq, h]; rfl

theorem exec_pla {i : Instr} (h : i.mnemonic = .pla) (s : State) :
    exec i s = .next (plaOp i.opcode i.mode s) := by rw [exec_eq, h]; rfl

theorem exec_plp {i : Instr} (h : i.mnemonic = .plp) (s : State) :
    exec i s = .next (plpOp i.opcode i.mode s) := by rw [exec_eq, h]; rfl

theorem exec_adc {i : Instr} (h : i.mnemonic = .adc) (s : State) :
    exec i s = .next (adcOp i.opcode i.mode s) := by rw [exec_eq, h]; rfl

theorem exec_sbc {i : Instr} (h : i.mnemonic = .sbc) (s : State) :
    exec i s = .next (sbcOp i.opcode i.mode s) := by rw [exec_eq, h]; rfl

theorem exec_and {i : Instr} (h : i.mnemonic = .and) (s : State) :
    exec i s = .next (andOp i.opcode i.mode s) := by rw [exec_eq, h]; rfl

theorem exec_ora {i : Instr} (h : i.mnemonic = .ora) (s : State) :
    exec i s = .next (oraOp i.opcode i.mode s) := by rw [exec_eq, h]; rfl

theorem exec_eor {i : Instr} (h : i.mnemonic = .eor) (s : State) :
    exec i s = .next (eorOp i.opcode i.mode s) := by rw [exec_eq, h]; rfl

theorem exec_cmp {i : Instr} (h : i.mnemonic = .cmp) (s : State) :
    exec i s = .next (cmpOp i.opcode i.mode s) := by rw [exec_eq, h]; rfl

theorem exec_cpx {i : Instr} (h : i.mnemonic = .cpx) (s : State) :
    exec i s = .next (cpxOp i.opcode i.mode s) := by rw [exec_eq, h]; rfl

theorem exec_cpy {i : Instr} (h : i.mnemonic = .cpy) (s : State) :
    exec i s = .next (cpyOp i.opcode i.mode s) := by rw [exec_eq, h]; rfl

theorem exec_bit {i : Instr} (h : i.mnemonic = .bit) (s : State) :
    exec i s = .next (bitOp i.opcode i.mode s) := by rw [exec_eq, h]; rfl

theorem exec_asl {i : Instr} (h : i.mnemonic = .asl) (s : State) :
    exec i s = .next (aslOp i.opcode i.mode s) := by rw [exec_eq, h]; rfl

theorem exec_lsr {i : Instr} (h : i.mnemonic = .lsr) (s : State) :
    exec i s = .next (lsrOp i.opcode i.mode s) := by rw [exec_eq, h]; rfl

theorem exec_rol {i : Instr} (h : i.mnemonic = .rol) (s : State) :
    exec i s = .next (rolOp i.opcode i.mode s) := by rw [exec_eq, h]; rfl

theorem exec_ror {i : Instr} (h : i.mnemonic = .ror) (s : State) :
    exec i s = .next (rorOp i.opcode i.mode s) := by rw [exec_eq, h]; rfl

theorem exec_inc {i : Instr} (h : i.mnemonic = .inc) (s : State) :
    exec i s = .next (incOp i.opcode i.mode s) := by rw [exec_eq, h]; rfl

theorem exec_dec {i : Instr} (h : i.mnemonic = .dec) (s : State) :
    exec i s = .next (decOp i.opcode i.mode s) := by rw [exec_eq, h]; rfl

theorem exec_inx {i : Instr} (h : i.mnemonic = .inx) (s : State) :
    exec i s = .next (inxOp i.opcode i.mode s) := by rw [exec_eq, h]; rfl

theorem exec_iny {i : Instr} (h : i.mnemonic = .iny) (s : State) :
    exec i s = .next (inyOp i.opcode i.mode s) := by rw [exec_eq, h]; rfl

theorem exec_dex {i : Instr} (h : i.mnemonic = .dex) (s : State) :
    exec i s = .next (dexOp i.opcode i.mode s) := by rw [exec_eq, h]; rfl

theorem exec_dey {i : Instr} (h : i.mnemonic = .dey) (s : State) :
    exec i s = .next (deyOp i.opcode i.mode s) := by rw [exec_eq, h]; rfl

theorem exec_bpl {i : Instr} (h : i.mnemonic = .bpl) (s : State) :
    exec i s = .next (bplOp i.opcode i.mode s) := by rw [exec_eq, h]; rfl

theorem exec_bmi {i : Instr} (h : i.mnemonic = .bmi) (s : State) :
    exec i s = .next (bmiOp i.opcode i.mode s) := by rw [exec_eq, h]; rfl

theorem exec_bvc {i : Instr} (h : i.mnemonic = .bvc) (s : State) :
    exec i s = .next (bvcOp i.opcode i.mode s) := by rw [exec_eq, h]; rfl

theorem exec_bvs {i : Instr} (h : i.mnemonic = .bvs) (s : State) :
    exec i s = .next (bvsOp i.opcode i.mode s) := by rw [exec_eq, h]; rfl

theorem exec_bcc {i : Instr} (h : i.mnemonic = .bcc) (s : State) :
    exec i s = .next (bccOp i.opcode i.mode s) := by rw [exec_eq, h]; rfl

theorem exec_bcs {i : Instr} (h : i.mnemonic = .bcs) (s : State) :
    exec i s = .next (bcsOp i.opcode i.mode s) := by rw [exec_eq, h]; rfl

theorem exec_bne {i : Instr} (h : i.mnemonic = .bne) (s : State) :
    exec i s = .next (bneOp i.opcode i.mode s) := by rw [exec_eq, h]; rfl

theorem exec_beq {i : Instr} (h : i.mnemonic = .beq) (s : State) :
    exec i s = .next (beqOp i.opcode i.mode s) := by rw [exec_eq, h]; rfl

theorem exec_jmp {i : Instr} (h : i.mnemonic = .jmp) (s : State) :
    exec i s = .next (jmpOp i.opcode i.mode s) := by rw [exec_eq, h]; rfl

theorem exec_jsr {i : Instr} (h : i.mnemonic = .jsr) (s : State) :
    exec i s = .next (jsrOp i.opcode i.mode s) := by rw [exec_eq, h]; rfl

theorem exec_rts {i : Instr} (h : i.mnemonic = .rts) (s : State) :
    exec i s = .next (rtsOp i.opcode i.mode s) := by rw [exec_eq, h]; rfl

theorem exec_brk {i : Instr} (h : i.mnemonic = .brk) (s : State) :
    exec i s = .next (brkOp i.opcode i.mode s) := by rw [exec_eq, h]; rfl

theorem exec_rti {i : Instr} (h : i.mnemonic = .rti) (s : State) :
    exec i s = .next (rtiOp i.opcode i.mode s) := by rw [exec_eq, h]; rfl

theorem exec_clc {i : Instr} (h : i.mnemonic = .clc) (s : State) :
    exec i s = .next (clcOp i.opcode i.mode s) := by rw [exec_eq, h]; rfl

theorem exec_sec {i : Instr} (h : i.mnemonic = .sec) (s : State) :
    exec i s = .next (secOp i.opcode i.mode s) := by rw [exec_eq, h]; rfl

theorem exec_cli {i : Instr} (h : i.mnemonic = .cli) (s : State) :
    exec i s = .next (cliOp i.opcode i.mode s) := by rw [exec_eq, h]; rfl

theorem exec_sei {i : Instr} (h : i.mnemonic = .sei) (s : State) :
    exec i s = .next (seiOp i.opcode i.mode s) := by rw [exec_eq, h]; rfl

theorem exec_clv {i : Instr} (h : i.mnemonic = .clv) (s : State) :
    exec i s = .next (clvOp i.opcode i.mode s) := by rw [exec_eq, h]; rfl

theorem exec_cld {i : Instr} (h : i.mnemonic = .cld) (s : State) :
    exec i s = .next (cldOp i.opcode i.mode s) := by rw [exec_eq, h]; rfl

theorem exec_sed {i : Instr} (h : i.mnemonic = .sed) (s : State) :
    exec i s = .next (sedOp i.opcode i.mode s) := by rw [exec_eq, h]; rfl

theorem exec_nop {i : Instr} (h : i.mnemonic = .nop) (s : State) :
    exec i s = .next (nopOp i.opcode i.mode s) := by rw [exec_eq, h]; rfl

end Sys2Proof.Machine
end

