-- ==== Sys2Proof/Laws/Flags.lean ====
section
/-! SUPPORT. The laws of the flags of P: what a flag reads after each flag computation (10_state R38, R39). -/

namespace Sys2Proof.Machine

@[simp] theorem flag_eq (s : State) (f : Flag) : s.flag f = getFlag f s.p := rfl

theorem getFlag_setFlag (f g : Flag) (v : Bool) (p : Byte) :
    getFlag g (setFlag f v p) = if g = f then v else getFlag g p := by
  cases f <;> cases g <;> cases v <;> simp [getFlag, setFlag, flagBit]

@[simp] theorem getFlag_setFlag_same (f : Flag) (v : Bool) (p : Byte) : getFlag f (setFlag f v p) = v := by
  simp [getFlag_setFlag]

@[simp] theorem getFlag_setFlag_other {f g : Flag} (h : g ≠ f) (v : Bool) (p : Byte) :
    getFlag g (setFlag f v p) = getFlag g p := by
  simp [getFlag_setFlag, h]

/-- Two status bytes are equal when all eight flags are. -/
theorem eq_of_getFlag {p q : Byte} (h : ∀ f, getFlag f p = getFlag f q) : p = q := by
  apply BitVec.eq_of_getLsbD_eq
  intro i hi
  have : i = 0 ∨ i = 1 ∨ i = 2 ∨ i = 3 ∨ i = 4 ∨ i = 5 ∨ i = 6 ∨ i = 7 := by omega
  rcases this with rfl | rfl | rfl | rfl | rfl | rfl | rfl | rfl
  · exact h .c
  · exact h .z
  · exact h .i
  · exact h .d
  · exact h .b
  · exact h .u
  · exact h .v
  · exact h .n

theorem getFlag_setNZ (f : Flag) (v p : Byte) :
    getFlag f (setNZ v p) = if f = .n then v.getLsbD 7 else if f = .z then v == 0#8 else getFlag f p := by
  simp only [setNZ, getFlag_setFlag]

theorem getFlag_addFlags (f : Flag) (r : AddResult) (p : Byte) :
    getFlag f (addFlags r p) =
      if f = .n then r.result.getLsbD 7 else if f = .z then r.result == 0#8
      else if f = .v then r.overflow else if f = .c then r.carry else getFlag f p := by
  simp only [addFlags, getFlag_setNZ, getFlag_setFlag]

theorem getFlag_compareFlags (f : Flag) (r m p : Byte) :
    getFlag f (compareFlags r m p) =
      if f = .n then (r - m).getLsbD 7 else if f = .z then r == m
      else if f = .c then decide (m.toNat ≤ r.toNat) else getFlag f p := by
  simp only [compareFlags, getFlag_setFlag]

theorem getFlag_bitFlags (f : Flag) (a m p : Byte) :
    getFlag f (bitFlags a m p) =
      if f = .v then m.getLsbD 6 else if f = .n then m.getLsbD 7
      else if f = .z then (a &&& m) == 0#8 else getFlag f p := by
  simp only [bitFlags, getFlag_setFlag]

theorem getFlag_shiftFlags (f : Flag) (r : ShiftResult) (p : Byte) :
    getFlag f (shiftFlags r p) =
      if f = .n then r.result.getLsbD 7 else if f = .z then r.result == 0#8
      else if f = .c then r.carry else getFlag f p := by
  simp only [shiftFlags, getFlag_setNZ, getFlag_setFlag]

theorem getFlag_pushedP (f : Flag) (brk : Bool) (p : Byte) :
    getFlag f (pushedP brk p) = if f = .b then brk else if f = .u then true else getFlag f p := by
  cases f <;> cases brk <;> simp [getFlag, pushedP, flagBit]

theorem getFlag_restoreP (f : Flag) (v : Byte) :
    getFlag f (restoreP v) = if f = .b then false else if f = .u then true else getFlag f v := by
  cases f <;> simp [getFlag, restoreP, flagBit]

end Sys2Proof.Machine
end

