-- ==== Sys2Proof/Laws/Memory.lean ====
section
/-! SUPPORT. The laws of a memory array: a read after a write, and that every operation keeps the canonical form and the
bound. -/

namespace Sys2Proof.Machine

@[simp] theorem Memory.read_nil (i : Nat) : Memory.read [] i = unlistedByte := rfl

theorem Memory.sortedFrom_mono {lo lo' : Nat} (h : lo' ≤ lo) (m : Memory) (hm : Memory.sortedFrom lo m = true) :
    Memory.sortedFrom lo' m = true := by
  cases m with
  | nil => rfl
  | cons e rest =>
    simp only [Memory.sortedFrom, Bool.and_eq_true, decide_eq_true_eq] at hm ⊢
    exact ⟨⟨by omega, hm.1.2⟩, hm.2⟩

/-- An offset below every listed one reads as unlisted. -/
theorem Memory.read_below {lo i : Nat} (m : Memory) (hm : Memory.sortedFrom lo m = true) (hi : i < lo) :
    m.read i = unlistedByte := by
  induction m generalizing lo with
  | nil => rfl
  | cons e rest ih =>
    simp only [Memory.sortedFrom, Bool.and_eq_true, decide_eq_true_eq] at hm
    have hne : e.1 ≠ i := by omega
    rw [Memory.read, if_neg hne]
    exact ih hm.2 (by omega)

theorem Memory.sortedFrom_write {lo : Nat} (m : Memory) (i : Nat) (v : Byte) (hm : Memory.sortedFrom lo m = true)
    (hi : lo ≤ i) : Memory.sortedFrom lo (m.write i v) = true := by
  induction m generalizing lo with
  | nil =>
    by_cases hv : v = unlistedByte
    · simp [Memory.write, hv, Memory.sortedFrom]
    · simp only [Memory.write, if_neg hv, Memory.sortedFrom, Bool.and_eq_true, decide_eq_true_eq]
      exact ⟨⟨hi, hv⟩, trivial⟩
  | cons e rest ih =>
    simp only [Memory.sortedFrom, Bool.and_eq_true, decide_eq_true_eq] at hm
    obtain ⟨⟨hlo, hne⟩, hrest⟩ := hm
    have keep : Memory.sortedFrom lo ((e.1, e.2) :: rest) = true := by
      simp only [Memory.sortedFrom, Bool.and_eq_true, decide_eq_true_eq]
      exact ⟨⟨hlo, hne⟩, hrest⟩
    simp only [Memory.write]
    split
    · rename_i hlt
      split
      · exact keep
      · rename_i hv
        simp only [Memory.sortedFrom, Bool.and_eq_true, decide_eq_true_eq]
        exact ⟨⟨hi, hv⟩, ⟨by omega, hne⟩, hrest⟩
    · split
      · split
        · exact Memory.sortedFrom_mono (by omega) rest hrest
        · rename_i _ heq hv
          simp only [Memory.sortedFrom, Bool.and_eq_true, decide_eq_true_eq]
          exact ⟨⟨hi, hv⟩, Memory.sortedFrom_mono (by omega) rest hrest⟩
      · simp only [Memory.sortedFrom, Bool.and_eq_true, decide_eq_true_eq]
        exact ⟨⟨hlo, hne⟩, ih hrest (by omega)⟩

/-- A write keeps the canonical form. -/
theorem Memory.wf_write (m : Memory) (i : Nat) (v : Byte) (hm : m.wf = true) : (m.write i v).wf = true :=
  Memory.sortedFrom_write m i v hm (Nat.zero_le i)

theorem Memory.below_write (size : Nat) (m : Memory) (i : Nat) (v : Byte) (hm : m.below size = true) (hi : i < size) :
    (m.write i v).below size = true := by
  induction m with
  | nil =>
    simp only [Memory.write]
    split
    · rfl
    · simpa [Memory.below] using hi
  | cons e rest ih =>
    simp only [Memory.below, List.all_cons, Bool.and_eq_true, decide_eq_true_eq] at hm ih ⊢
    simp only [Memory.write]
    split_ifs
    · simpa using hm
    · simpa using ⟨hi, by simpa using hm⟩
    · exact hm.2
    · simpa using ⟨hi, by simpa using hm.2⟩
    · simpa using ⟨hm.1, by simpa using ih hm.2⟩

/-- The byte just written reads back. -/
theorem Memory.read_write_same {lo : Nat} (m : Memory) (i : Nat) (v : Byte) (hm : Memory.sortedFrom lo m = true) :
    (m.write i v).read i = v := by
  induction m generalizing lo with
  | nil =>
    by_cases hv : v = unlistedByte
    · simp [Memory.write, hv]
    · simp [Memory.write, hv, Memory.read]
  | cons e rest ih =>
    simp only [Memory.sortedFrom, Bool.and_eq_true, decide_eq_true_eq] at hm
    obtain ⟨⟨_, _⟩, hrest⟩ := hm
    simp only [Memory.write]
    split
    · rename_i hlt
      split
      · rename_i hv
        rw [Memory.read, if_neg (by omega), hv]
        exact Memory.read_below rest hrest (by omega)
      · simp [Memory.read]
    · split
      · rename_i heq
        split
        · rename_i hv
          rw [hv]
          exact Memory.read_below rest hrest (by omega)
        · simp [Memory.read]
      · rename_i hne
        rw [Memory.read, if_neg (fun h => hne h.symm)]
        exact ih hrest

/-- Every other offset reads as before. -/
theorem Memory.read_write_other {lo : Nat} (m : Memory) (i j : Nat) (v : Byte) (hm : Memory.sortedFrom lo m = true)
    (hij : i ≠ j) : (m.write i v).read j = m.read j := by
  induction m generalizing lo with
  | nil =>
    by_cases hv : v = unlistedByte
    · simp [Memory.write, hv]
    · simp [Memory.write, hv, Memory.read, hij]
  | cons e rest ih =>
    simp only [Memory.sortedFrom, Bool.and_eq_true, decide_eq_true_eq] at hm
    obtain ⟨⟨_, _⟩, hrest⟩ := hm
    simp only [Memory.write]
    split
    · split
      · rfl
      · simp [Memory.read, hij]
    · split
      · rename_i heq
        split
        · simp [Memory.read, ← heq, hij]
        · simp [Memory.read, ← heq, hij]
      · simp only [Memory.read]
        split
        · rfl
        · exact ih hrest

/-- Reading after a write, in a canonical array. -/
theorem Memory.read_write (m : Memory) (i j : Nat) (v : Byte) (hm : m.wf = true) :
    (m.write i v).read j = if i = j then v else m.read j := by
  split
  · rename_i h
    subst h
    exact Memory.read_write_same m i v hm
  · rename_i h
    exact Memory.read_write_other m i j v hm h

theorem Memory.sortedFrom_ofBytesFrom (base : Nat) (bytes : List Byte) :
    Memory.sortedFrom base (Memory.ofBytesFrom base bytes) = true := by
  induction bytes generalizing base with
  | nil => rfl
  | cons b rest ih =>
    simp only [Memory.ofBytesFrom]
    split
    · exact Memory.sortedFrom_mono (by omega) _ (ih (base + 1))
    · rename_i hb
      simp only [Memory.sortedFrom, Bool.and_eq_true, decide_eq_true_eq]
      exact ⟨⟨le_refl _, hb⟩, ih (base + 1)⟩

/-- The array of a list of bytes is canonical. -/
theorem Memory.wf_ofBytes (bytes : List Byte) : (Memory.ofBytes bytes).wf = true :=
  Memory.sortedFrom_ofBytesFrom 0 bytes

theorem Memory.below_ofBytesFrom (base size : Nat) (bytes : List Byte) (h : base + bytes.length ≤ size) :
    (Memory.ofBytesFrom base bytes).below size = true := by
  induction bytes generalizing base with
  | nil => rfl
  | cons b rest ih =>
    simp only [List.length_cons] at h
    have tail := ih (base + 1) (by omega)
    simp only [Memory.ofBytesFrom]
    split
    · exact tail
    · simp only [Memory.below, List.all_cons, Bool.and_eq_true, decide_eq_true_eq] at tail ⊢
      exact ⟨by omega, tail⟩

theorem Memory.read_ofBytesFrom (base i : Nat) (bytes : List Byte) :
    (Memory.ofBytesFrom base bytes).read (base + i) = bytes.getD i unlistedByte := by
  induction bytes generalizing base i with
  | nil => rfl
  | cons b rest ih =>
    cases i with
    | zero =>
      by_cases hb : b = unlistedByte
      · simpa [Memory.ofBytesFrom, hb] using
          Memory.read_below _ (Memory.sortedFrom_ofBytesFrom (base + 1) rest) (Nat.lt_succ_self base)
      · simp [Memory.ofBytesFrom, hb, Memory.read]
    | succ i =>
      have h := ih (base + 1) i
      rw [show base + 1 + i = base + (i + 1) by omega] at h
      by_cases hb : b = unlistedByte
      · simpa [Memory.ofBytesFrom, hb] using h
      · simpa [Memory.ofBytesFrom, hb, Memory.read] using h

/-- The array of a list of bytes reads as the list. -/
theorem Memory.read_ofBytes (bytes : List Byte) (i : Nat) :
    (Memory.ofBytes bytes).read i = bytes.getD i unlistedByte := by
  simpa [Memory.ofBytes] using Memory.read_ofBytesFrom 0 i bytes

end Sys2Proof.Machine
end

