-- ==== Sys2Proof/Laws/State.lean ====
section
/-! SUPPORT. One lemma for each field and each named update of State, true by rfl, so that no later proof unfolds a record
update. -/

namespace Sys2Proof.Machine

@[simp] theorem withFlag_a (f : Flag) (v : Bool) (s : State) : (s.withFlag f v).a = s.a := rfl
@[simp] theorem withFlag_x (f : Flag) (v : Bool) (s : State) : (s.withFlag f v).x = s.x := rfl
@[simp] theorem withFlag_y (f : Flag) (v : Bool) (s : State) : (s.withFlag f v).y = s.y := rfl
@[simp] theorem withFlag_sp (f : Flag) (v : Bool) (s : State) : (s.withFlag f v).sp = s.sp := rfl
@[simp] theorem withFlag_pc (f : Flag) (v : Bool) (s : State) : (s.withFlag f v).pc = s.pc := rfl
@[simp] theorem withFlag_nmiPending (f : Flag) (v : Bool) (s : State) : (s.withFlag f v).nmiPending = s.nmiPending := rfl
@[simp] theorem withFlag_irqPending (f : Flag) (v : Bool) (s : State) : (s.withFlag f v).irqPending = s.irqPending := rfl
@[simp] theorem withFlag_halted (f : Flag) (v : Bool) (s : State) : (s.withFlag f v).halted = s.halted := rfl
@[simp] theorem withFlag_stepCycles (f : Flag) (v : Bool) (s : State) : (s.withFlag f v).stepCycles = s.stepCycles := rfl
@[simp] theorem withFlag_ram (f : Flag) (v : Bool) (s : State) : (s.withFlag f v).ram = s.ram := rfl
@[simp] theorem withFlag_prgRam (f : Flag) (v : Bool) (s : State) : (s.withFlag f v).prgRam = s.prgRam := rfl
@[simp] theorem withFlag_chrRam (f : Flag) (v : Bool) (s : State) : (s.withFlag f v).chrRam = s.chrRam := rfl
@[simp] theorem withFlag_sxrom (f : Flag) (v : Bool) (s : State) : (s.withFlag f v).sxrom = s.sxrom := rfl
@[simp] theorem withFlag_unromPrgBank (f : Flag) (v : Bool) (s : State) : (s.withFlag f v).unromPrgBank = s.unromPrgBank := rfl
@[simp] theorem withFlag_cnromChrBank (f : Flag) (v : Bool) (s : State) : (s.withFlag f v).cnromChrBank = s.cnromChrBank := rfl
@[simp] theorem withFlag_cart (f : Flag) (v : Bool) (s : State) : (s.withFlag f v).cart = s.cart := rfl
@[simp] theorem withFlag_bus (f : Flag) (v : Bool) (s : State) : (s.withFlag f v).bus = s.bus := rfl
@[simp] theorem withFlag_draws (f : Flag) (v : Bool) (s : State) : (s.withFlag f v).draws = s.draws := rfl
@[simp] theorem withFlag_p (f : Flag) (v : Bool) (s : State) : (s.withFlag f v).p = setFlag f v s.p := rfl

@[simp] theorem retire_a (op : Byte) (c t : Bool) (s : State) : (retire op c t s).a = s.a := rfl
@[simp] theorem retire_x (op : Byte) (c t : Bool) (s : State) : (retire op c t s).x = s.x := rfl
@[simp] theorem retire_y (op : Byte) (c t : Bool) (s : State) : (retire op c t s).y = s.y := rfl
@[simp] theorem retire_sp (op : Byte) (c t : Bool) (s : State) : (retire op c t s).sp = s.sp := rfl
@[simp] theorem retire_p (op : Byte) (c t : Bool) (s : State) : (retire op c t s).p = s.p := rfl
@[simp] theorem retire_pc (op : Byte) (c t : Bool) (s : State) : (retire op c t s).pc = s.pc := rfl
@[simp] theorem retire_nmiPending (op : Byte) (c t : Bool) (s : State) : (retire op c t s).nmiPending = s.nmiPending := rfl
@[simp] theorem retire_irqPending (op : Byte) (c t : Bool) (s : State) : (retire op c t s).irqPending = s.irqPending := rfl
@[simp] theorem retire_halted (op : Byte) (c t : Bool) (s : State) : (retire op c t s).halted = s.halted := rfl
@[simp] theorem retire_ram (op : Byte) (c t : Bool) (s : State) : (retire op c t s).ram = s.ram := rfl
@[simp] theorem retire_prgRam (op : Byte) (c t : Bool) (s : State) : (retire op c t s).prgRam = s.prgRam := rfl
@[simp] theorem retire_chrRam (op : Byte) (c t : Bool) (s : State) : (retire op c t s).chrRam = s.chrRam := rfl
@[simp] theorem retire_sxrom (op : Byte) (c t : Bool) (s : State) : (retire op c t s).sxrom = s.sxrom := rfl
@[simp] theorem retire_unromPrgBank (op : Byte) (c t : Bool) (s : State) : (retire op c t s).unromPrgBank = s.unromPrgBank := rfl
@[simp] theorem retire_cnromChrBank (op : Byte) (c t : Bool) (s : State) : (retire op c t s).cnromChrBank = s.cnromChrBank := rfl
@[simp] theorem retire_cart (op : Byte) (c t : Bool) (s : State) : (retire op c t s).cart = s.cart := rfl
@[simp] theorem retire_bus (op : Byte) (c t : Bool) (s : State) : (retire op c t s).bus = s.bus := rfl
@[simp] theorem retire_draws (op : Byte) (c t : Bool) (s : State) : (retire op c t s).draws = s.draws := rfl
@[simp] theorem retire_stepCycles (op : Byte) (c t : Bool) (s : State) :
    (retire op c t s).stepCycles = cyclesOf op c t := rfl

@[simp] theorem busRead_a (m : Master) (a : Word) (s : State) : (busRead m a s).2.a = s.a := rfl
@[simp] theorem busRead_x (m : Master) (a : Word) (s : State) : (busRead m a s).2.x = s.x := rfl
@[simp] theorem busRead_y (m : Master) (a : Word) (s : State) : (busRead m a s).2.y = s.y := rfl
@[simp] theorem busRead_sp (m : Master) (a : Word) (s : State) : (busRead m a s).2.sp = s.sp := rfl
@[simp] theorem busRead_p (m : Master) (a : Word) (s : State) : (busRead m a s).2.p = s.p := rfl
@[simp] theorem busRead_pc (m : Master) (a : Word) (s : State) : (busRead m a s).2.pc = s.pc := rfl
@[simp] theorem busRead_nmiPending (m : Master) (a : Word) (s : State) : (busRead m a s).2.nmiPending = s.nmiPending := rfl
@[simp] theorem busRead_irqPending (m : Master) (a : Word) (s : State) : (busRead m a s).2.irqPending = s.irqPending := rfl
@[simp] theorem busRead_halted (m : Master) (a : Word) (s : State) : (busRead m a s).2.halted = s.halted := rfl
@[simp] theorem busRead_stepCycles (m : Master) (a : Word) (s : State) : (busRead m a s).2.stepCycles = s.stepCycles := rfl
@[simp] theorem busRead_ram (m : Master) (a : Word) (s : State) : (busRead m a s).2.ram = s.ram := rfl
@[simp] theorem busRead_prgRam (m : Master) (a : Word) (s : State) : (busRead m a s).2.prgRam = s.prgRam := rfl
@[simp] theorem busRead_chrRam (m : Master) (a : Word) (s : State) : (busRead m a s).2.chrRam = s.chrRam := rfl
@[simp] theorem busRead_sxrom (m : Master) (a : Word) (s : State) : (busRead m a s).2.sxrom = s.sxrom := rfl
@[simp] theorem busRead_unromPrgBank (m : Master) (a : Word) (s : State) : (busRead m a s).2.unromPrgBank = s.unromPrgBank := rfl
@[simp] theorem busRead_cnromChrBank (m : Master) (a : Word) (s : State) : (busRead m a s).2.cnromChrBank = s.cnromChrBank := rfl
@[simp] theorem busRead_cart (m : Master) (a : Word) (s : State) : (busRead m a s).2.cart = s.cart := rfl
@[simp] theorem busRead_bus (m : Master) (a : Word) (s : State) :
    (busRead m a s).2.bus = ⟨m, .read, a, readValue a s⟩ :: s.bus := rfl
@[simp] theorem busRead_draws (m : Master) (a : Word) (s : State) :
    (busRead m a s).2.draws = if isPort a then s.draws + 1 else s.draws := rfl
@[simp] theorem busRead_value (m : Master) (a : Word) (s : State) : (busRead m a s).1 = readValue a s := rfl

end Sys2Proof.Machine
end

