-- ==== Sys2Proof/Laws/Ops.lean ====
section
/-! SUPPORT. One lemma for each shared operation of Machine/Ops.lean and Machine/Operands.lean, saying what it does, for
later proofs to cite instead of unfolding. -/

namespace Sys2Proof.Machine

/-! Addresses. -/

theorem toNat_mkWord (hi lo : Byte) : (mkWord hi lo).toNat = hi.toNat * 256 + lo.toNat := by
  have := lo.isLt
  simp only [mkWord, BitVec.toNat_append]
  rw [Nat.shiftLeft_eq, ← Nat.shiftLeft_eq, ← Nat.shiftLeft_add_eq_or_of_lt (by omega), Nat.shiftLeft_eq]

@[simp] theorem hiByte_mkWord (hi lo : Byte) : hiByte (mkWord hi lo) = hi := by
  apply BitVec.eq_of_toNat_eq
  have := toNat_mkWord hi lo
  have := lo.isLt
  have := hi.isLt
  simp only [hiByte, BitVec.extractLsb'_toNat, Nat.shiftRight_eq_div_pow]
  omega

@[simp] theorem loByte_mkWord (hi lo : Byte) : loByte (mkWord hi lo) = lo := by
  apply BitVec.eq_of_toNat_eq
  have := toNat_mkWord hi lo
  have := lo.isLt
  simp only [loByte, BitVec.extractLsb'_toNat, Nat.shiftRight_eq_div_pow]
  omega

@[simp] theorem mkWord_hiByte_loByte (w : Word) : mkWord (hiByte w) (loByte w) = w := by
  apply BitVec.eq_of_toNat_eq
  have := w.isLt
  simp only [toNat_mkWord, hiByte, loByte, BitVec.extractLsb'_toNat, Nat.shiftRight_eq_div_pow]
  omega

theorem toNat_zext16 (z : Byte) : (zext16 z).toNat = z.toNat := by
  have := z.isLt
  simp only [zext16, BitVec.toNat_setWidth]
  omega

/-- An address at or below 0x1FFF is system RAM (20_memory R72). -/
theorem route_of_le (a : Word) (h : a.toNat ≤ 0x1FFF) : route a = .ram := by
  have : a ≤ 0x1FFF#16 := by simpa [BitVec.le_def] using h
  simp [route, this]

@[simp] theorem route_zext16 (z : Byte) : route (zext16 z) = .ram :=
  route_of_le _ (by have := z.isLt; rw [toNat_zext16]; omega)

theorem toNat_stackAddress (sp : Byte) : (stackAddress sp).toNat = 0x100 + sp.toNat := by
  simp [stackAddress, toNat_mkWord]

@[simp] theorem route_stackAddress (sp : Byte) : route (stackAddress sp) = .ram :=
  route_of_le _ (by have := sp.isLt; rw [toNat_stackAddress]; omega)

theorem ramOffset_eq (a : Word) : ramOffset a = a.toNat % 0x800 := by
  simp only [ramOffset, BitVec.toNat_and]
  exact Nat.and_two_pow_sub_one_eq_mod a.toNat 11

theorem ramOffset_lt (a : Word) : ramOffset a < Config.ramSize := by
  rw [ramOffset_eq]
  exact Nat.mod_lt _ (by decide)

@[simp] theorem ramOffset_zext16 (z : Byte) : ramOffset (zext16 z) = z.toNat := by
  have := z.isLt
  rw [ramOffset_eq, toNat_zext16]
  omega

@[simp] theorem ramOffset_stackAddress (sp : Byte) : ramOffset (stackAddress sp) = 0x100 + sp.toNat := by
  have := sp.isLt
  rw [ramOffset_eq, toNat_stackAddress]
  omega

theorem prgRamOffset_eq (a : Word) : prgRamOffset a = a.toNat % 0x2000 := by
  simp only [prgRamOffset, BitVec.toNat_and]
  exact Nat.and_two_pow_sub_one_eq_mod a.toNat 13

theorem prgRamOffset_lt (a : Word) : prgRamOffset a < Config.prgRamSize := by
  rw [prgRamOffset_eq]
  exact Nat.mod_lt _ (by decide)

theorem slotOffset_eq (a : Word) : slotOffset a = a.toNat % 0x4000 := by
  simp only [slotOffset, BitVec.toNat_and]
  exact Nat.and_two_pow_sub_one_eq_mod a.toNat 14

/-- The address decode by ranges of numbers (20_memory R72, R73). -/
theorem route_eq (a : Word) :
    route a =
      if a.toNat < 0x2000 then .ram else if a.toNat < 0x4000 then .ppu else if a.toNat = 0x4014 then .ppu
      else if a.toNat < 0x4016 then .apu else if a.toNat < 0x4020 then .input
      else if a.toNat < 0x6000 then .unmapped else .cartridge := by
  have h : a = 0x4014#16 ↔ a.toNat = 0x4014 := by constructor <;> intro _ <;> bv_omega
  simp only [route, BitVec.le_def, h, BitVec.toNat_ofNat]
  split_ifs <;> first | rfl | omega

/-! Reads of the bus. -/

theorem readValue_ram {a : Word} (h : route a = .ram) (s : State) : readValue a s = s.ram.read (ramOffset a) := by
  simp [readValue, h]

theorem isPort_ram {a : Word} (h : route a = .ram) : isPort a = false := by simp [isPort, h]

/-- A read depends only on the memories, the mapper registers, the cartridge and the draw counter. -/
theorem readValue_congr (a : Word) {s t : State} (h1 : t.ram = s.ram) (h2 : t.prgRam = s.prgRam)
    (h3 : t.sxrom = s.sxrom) (h4 : t.unromPrgBank = s.unromPrgBank) (h5 : t.cart = s.cart) (h6 : t.draws = s.draws) :
    readValue a t = readValue a s := by
  simp only [readValue, prgLoad, prgIndex, h1, h2, h3, h4, h5, h6]

/-- A read of memory (not of a device port) does not depend on the draw counter either. -/
theorem readValue_congr_memory (a : Word) (hp : isPort a = false) {s t : State} (h1 : t.ram = s.ram)
    (h2 : t.prgRam = s.prgRam) (h3 : t.sxrom = s.sxrom) (h4 : t.unromPrgBank = s.unromPrgBank) (h5 : t.cart = s.cart) :
    readValue a t = readValue a s := by
  unfold isPort at hp
  unfold readValue
  split <;> simp_all [prgLoad, prgIndex]

/-- A bus read of RAM: only the log grows. -/
theorem busRead_of_ram {a : Word} (h : route a = .ram) (m : Master) (s : State) :
    busRead m a s = (s.ram.read (ramOffset a), { s with bus := ⟨m, .read, a, s.ram.read (ramOffset a)⟩ :: s.bus }) := by
  simp [busRead, readValue_ram h, isPort_ram h]

/-- Reads change only the log and the draw counter. -/
theorem busRead_frame (m : Master) (a : Word) (s : State) :
    (busRead m a s).2 = { s with bus := (busRead m a s).2.bus, draws := (busRead m a s).2.draws } := rfl

theorem dmaReads_frame (page : Byte) (n : Nat) (s : State) :
    dmaReads page n s = { s with bus := (dmaReads page n s).bus, draws := (dmaReads page n s).draws } := by
  induction n with
  | zero => rfl
  | succ n ih =>
    rw [dmaReads, busRead_frame, ih]

/-- n DMA reads add n DMA events to the log (20_memory R82). -/
theorem dmaReads_bus (page : Byte) (n : Nat) (s : State) :
    ∃ new, (dmaReads page n s).bus = new ++ s.bus ∧ new.length = n ∧
      ∀ e ∈ new, e.master = .dma ∧ e.access = .read := by
  induction n with
  | zero => exact ⟨[], rfl, rfl, by simp⟩
  | succ n ih =>
    obtain ⟨new, h1, h2, h3⟩ := ih
    exact ⟨_ :: new, by simp [dmaReads, h1]; rfl, by simp [h2], by simpa using h3⟩

/-! Writes of the bus. -/

/-- A write adds itself to the log, and at 0x4014 then 256 DMA events (20_memory R82, R98). -/
theorem busWrite_bus (a : Word) (v : Byte) (s : State) :
    ∃ new, (busWrite a v s).bus = new ++ ⟨.cpu, .write, a, v⟩ :: s.bus ∧ (a ≠ 0x4014#16 → new = []) ∧
      (a = 0x4014#16 → new.length = 256 ∧ ∀ e ∈ new, e.master = .dma ∧ e.access = .read) := by
  unfold busWrite storeAt
  by_cases ha : a = 0x4014#16
  · subst ha
    have hr : route 0x4014#16 = .ppu := by decide
    obtain ⟨new, h1, h2, h3⟩ := dmaReads_bus v 256 { s with bus := ⟨.cpu, .write, 0x4014#16, v⟩ :: s.bus }
    exact ⟨new, by simp [hr, h1], by simp, fun _ => ⟨h2, h3⟩⟩
  · refine ⟨[], ?_, by simp, by simp [ha]⟩
    split <;> simp [ha]
    unfold prgStore
    split
    · rfl
    · split <;> rfl

/-- What a write can change: RAM, PRG-RAM, the mapper registers, the log and the draw counter, nothing else. -/
theorem busWrite_frame (a : Word) (v : Byte) (s : State) :
    busWrite a v s =
      { s with
        ram := (busWrite a v s).ram, prgRam := (busWrite a v s).prgRam, sxrom := (busWrite a v s).sxrom,
        unromPrgBank := (busWrite a v s).unromPrgBank, cnromChrBank := (busWrite a v s).cnromChrBank,
        bus := (busWrite a v s).bus, draws := (busWrite a v s).draws } := by
  unfold busWrite storeAt
  split
  · rfl
  · split
    · rw [dmaReads_frame]
    · rfl
  · rfl
  · rfl
  · rfl
  · unfold prgStore
    split
    · rfl
    · split <;> rfl

@[simp] theorem busWrite_a (a : Word) (v : Byte) (s : State) : (busWrite a v s).a = s.a := by rw [busWrite_frame]
@[simp] theorem busWrite_x (a : Word) (v : Byte) (s : State) : (busWrite a v s).x = s.x := by rw [busWrite_frame]
@[simp] theorem busWrite_y (a : Word) (v : Byte) (s : State) : (busWrite a v s).y = s.y := by rw [busWrite_frame]
@[simp] theorem busWrite_sp (a : Word) (v : Byte) (s : State) : (busWrite a v s).sp = s.sp := by rw [busWrite_frame]
@[simp] theorem busWrite_p (a : Word) (v : Byte) (s : State) : (busWrite a v s).p = s.p := by rw [busWrite_frame]
@[simp] theorem busWrite_pc (a : Word) (v : Byte) (s : State) : (busWrite a v s).pc = s.pc := by rw [busWrite_frame]
@[simp] theorem busWrite_nmiPending (a : Word) (v : Byte) (s : State) :
    (busWrite a v s).nmiPending = s.nmiPending := by rw [busWrite_frame]
@[simp] theorem busWrite_irqPending (a : Word) (v : Byte) (s : State) :
    (busWrite a v s).irqPending = s.irqPending := by rw [busWrite_frame]
@[simp] theorem busWrite_halted (a : Word) (v : Byte) (s : State) :
    (busWrite a v s).halted = s.halted := by rw [busWrite_frame]
@[simp] theorem busWrite_stepCycles (a : Word) (v : Byte) (s : State) :
    (busWrite a v s).stepCycles = s.stepCycles := by rw [busWrite_frame]
@[simp] theorem busWrite_chrRam (a : Word) (v : Byte) (s : State) :
    (busWrite a v s).chrRam = s.chrRam := by rw [busWrite_frame]
@[simp] theorem busWrite_cart (a : Word) (v : Byte) (s : State) :
    (busWrite a v s).cart = s.cart := by rw [busWrite_frame]

/-- A write to RAM: the byte and the log. -/
theorem busWrite_of_ram {a : Word} (h : route a = .ram) (v : Byte) (s : State) :
    busWrite a v s = { s with ram := s.ram.write (ramOffset a) v, bus := ⟨.cpu, .write, a, v⟩ :: s.bus } := by
  simp [busWrite, storeAt, h]

/-! The stack, words and fetches. -/

/-- `Push(v)` (10_state R40). -/
theorem push_eq (v : Byte) (s : State) :
    push v s =
      { s with
        sp := s.sp - 1#8, ram := s.ram.write (0x100 + s.sp.toNat) v,
        bus := ⟨.cpu, .write, stackAddress s.sp, v⟩ :: s.bus } := by
  simp [push, busWrite_of_ram (route_stackAddress s.sp)]

/-- `Pull()` (10_state R41). -/
theorem pull_eq (s : State) :
    pull s =
      (s.ram.read (0x100 + (s.sp + 1#8).toNat),
       { s with
         sp := s.sp + 1#8
         bus := ⟨.cpu, .read, stackAddress (s.sp + 1#8), s.ram.read (0x100 + (s.sp + 1#8).toNat)⟩ :: s.bus }) := by
  rw [pull, busRead_of_ram (route_stackAddress (s.sp + 1#8)), ramOffset_stackAddress]

/-- `ZpWord(z)` (20_memory R107). -/
theorem zpWord_eq (z : Byte) (s : State) :
    zpWord z s =
      (mkWord (s.ram.read (z + 1#8).toNat) (s.ram.read z.toNat),
       { s with
         bus := ⟨.cpu, .read, zext16 (z + 1#8), s.ram.read (z + 1#8).toNat⟩ ::
           ⟨.cpu, .read, zext16 z, s.ram.read z.toNat⟩ :: s.bus }) := by
  simp only [zpWord, busRead_of_ram (route_zext16 z), busRead_of_ram (route_zext16 (z + 1#8)), ramOffset_zext16]

/-- A fetch advances PC and reads one byte (30_encoding R171). -/
theorem fetchByte_frame (s : State) :
    (fetchByte s).2 =
      { s with pc := s.pc + 1#16, bus := (fetchByte s).2.bus, draws := (fetchByte s).2.draws } := rfl

theorem fetchBytes_frame (n : Nat) (s : State) :
    (fetchBytes n s).2 =
      { s with
        pc := s.pc + BitVec.ofNat 16 n, bus := (fetchBytes n s).2.bus, draws := (fetchBytes n s).2.draws } := by
  induction n generalizing s with
  | zero => simp [fetchBytes]
  | succ n ih =>
    rw [fetchBytes]
    simp only []
    rw [ih (fetchByte s).2, fetchByte_frame]
    have : s.pc + 1#16 + BitVec.ofNat 16 n = s.pc + BitVec.ofNat 16 (n + 1) := by
      rw [BitVec.add_assoc]
      congr 1
      apply BitVec.eq_of_toNat_eq
      simp [BitVec.toNat_add, Nat.add_comm]
    simp [this]

/-- n fetches add n events to the log. -/
theorem length_fetchBytes_bus (n : Nat) (s : State) : (fetchBytes n s).2.bus.length = s.bus.length + n := by
  induction n generalizing s with
  | zero => rfl
  | succ n ih =>
    rw [fetchBytes]
    simp only [ih]
    simp only [fetchByte, busRead, List.length_cons]
    omega

/-- Fetching an instruction changes PC, the log and the draw counter (30_encoding R171, R172). -/
theorem fetchInstr_frame (s : State) :
    (fetchInstr s).2 =
      { s with pc := (fetchInstr s).2.pc, bus := (fetchInstr s).2.bus, draws := (fetchInstr s).2.draws } := by
  rw [fetchInstr]
  simp only []
  rw [fetchBytes_frame, fetchByte_frame]

/-! Operands. -/

/-- Resolving a mode changes only the log and the draw counter (30_encoding R185). -/
theorem resolve_frame (m : Mode) (s : State) :
    (resolve m s).2 = { s with bus := (resolve m s).2.bus, draws := (resolve m s).2.draws } := by
  cases m <;> rfl

/-- Loading an operand changes only the log and the draw counter. -/
theorem load_frame (o : Operand) (s : State) :
    (load o s).2 = { s with bus := (load o s).2.bus, draws := (load o s).2.draws } := by
  cases o <;> rfl

end Sys2Proof.Machine
end

