-- ==== Sys2Proof/Laws/PerInstr.lean ====
section
/-! SUPPORT. Facts about every instruction as syntax, one lemma for each constructor: the family EncodedLength. -/

namespace Sys2Proof.Laws.EncodedLength

/-- The encoding of an instruction is as long as the opcode map says from its opcode byte alone (30_encoding R170, R173). -/
def Statement (i : Instr) : Prop :=
  i.wellFormed = true → (encode i).length = operandCount (cellOf i.opcode) + 1

/-- The statement from the opcode byte, the operand count of its cell and the length of the encoding. -/
theorem of_opcode {i : Instr} (op : Byte) {n : Nat} (h : i.opcode = op) (hn : operandCount (cellOf op) = n)
    (hl : (encode i).length = n + 1) : Statement i := by
  intro _
  rw [h, hn, hl]

theorem ldaImm (b : Byte) : Statement (.ldaImm b) := of_opcode 0xA9#8 rfl rfl rfl
theorem ldaZp (z : Byte) : Statement (.ldaZp z) := of_opcode 0xA5#8 rfl rfl rfl
theorem ldaZpX (z : Byte) : Statement (.ldaZpX z) := of_opcode 0xB5#8 rfl rfl rfl
theorem ldaAbs (a : Word) : Statement (.ldaAbs a) := of_opcode 0xAD#8 rfl rfl rfl
theorem ldaAbsX (a : Word) : Statement (.ldaAbsX a) := of_opcode 0xBD#8 rfl rfl rfl
theorem ldaAbsY (a : Word) : Statement (.ldaAbsY a) := of_opcode 0xB9#8 rfl rfl rfl
theorem ldaIndX (z : Byte) : Statement (.ldaIndX z) := of_opcode 0xA1#8 rfl rfl rfl
theorem ldaIndY (z : Byte) : Statement (.ldaIndY z) := of_opcode 0xB1#8 rfl rfl rfl
theorem ldxImm (b : Byte) : Statement (.ldxImm b) := of_opcode 0xA2#8 rfl rfl rfl
theorem ldxZp (z : Byte) : Statement (.ldxZp z) := of_opcode 0xA6#8 rfl rfl rfl
theorem ldxZpY (z : Byte) : Statement (.ldxZpY z) := of_opcode 0xB6#8 rfl rfl rfl
theorem ldxAbs (a : Word) : Statement (.ldxAbs a) := of_opcode 0xAE#8 rfl rfl rfl
theorem ldxAbsY (a : Word) : Statement (.ldxAbsY a) := of_opcode 0xBE#8 rfl rfl rfl
theorem ldyImm (b : Byte) : Statement (.ldyImm b) := of_opcode 0xA0#8 rfl rfl rfl
theorem ldyZp (z : Byte) : Statement (.ldyZp z) := of_opcode 0xA4#8 rfl rfl rfl
theorem ldyZpX (z : Byte) : Statement (.ldyZpX z) := of_opcode 0xB4#8 rfl rfl rfl
theorem ldyAbs (a : Word) : Statement (.ldyAbs a) := of_opcode 0xAC#8 rfl rfl rfl
theorem ldyAbsX (a : Word) : Statement (.ldyAbsX a) := of_opcode 0xBC#8 rfl rfl rfl
theorem staZp (z : Byte) : Statement (.staZp z) := of_opcode 0x85#8 rfl rfl rfl
theorem staZpX (z : Byte) : Statement (.staZpX z) := of_opcode 0x95#8 rfl rfl rfl
theorem staAbs (a : Word) : Statement (.staAbs a) := of_opcode 0x8D#8 rfl rfl rfl
theorem staAbsX (a : Word) : Statement (.staAbsX a) := of_opcode 0x9D#8 rfl rfl rfl
theorem staAbsY (a : Word) : Statement (.staAbsY a) := of_opcode 0x99#8 rfl rfl rfl
theorem staIndX (z : Byte) : Statement (.staIndX z) := of_opcode 0x81#8 rfl rfl rfl
theorem staIndY (z : Byte) : Statement (.staIndY z) := of_opcode 0x91#8 rfl rfl rfl
theorem stxZp (z : Byte) : Statement (.stxZp z) := of_opcode 0x86#8 rfl rfl rfl
theorem stxZpY (z : Byte) : Statement (.stxZpY z) := of_opcode 0x96#8 rfl rfl rfl
theorem stxAbs (a : Word) : Statement (.stxAbs a) := of_opcode 0x8E#8 rfl rfl rfl
theorem styZp (z : Byte) : Statement (.styZp z) := of_opcode 0x84#8 rfl rfl rfl
theorem styZpX (z : Byte) : Statement (.styZpX z) := of_opcode 0x94#8 rfl rfl rfl
theorem styAbs (a : Word) : Statement (.styAbs a) := of_opcode 0x8C#8 rfl rfl rfl
theorem tax : Statement .tax := of_opcode 0xAA#8 rfl rfl rfl
theorem tay : Statement .tay := of_opcode 0xA8#8 rfl rfl rfl
theorem txa : Statement .txa := of_opcode 0x8A#8 rfl rfl rfl
theorem tya : Statement .tya := of_opcode 0x98#8 rfl rfl rfl
theorem tsx : Statement .tsx := of_opcode 0xBA#8 rfl rfl rfl
theorem txs : Statement .txs := of_opcode 0x9A#8 rfl rfl rfl
theorem pha : Statement .pha := of_opcode 0x48#8 rfl rfl rfl
theorem php : Statement .php := of_opcode 0x08#8 rfl rfl rfl
theorem pla : Statement .pla := of_opcode 0x68#8 rfl rfl rfl
theorem plp : Statement .plp := of_opcode 0x28#8 rfl rfl rfl
theorem adcImm (b : Byte) : Statement (.adcImm b) := of_opcode 0x69#8 rfl rfl rfl
theorem adcZp (z : Byte) : Statement (.adcZp z) := of_opcode 0x65#8 rfl rfl rfl
theorem adcZpX (z : Byte) : Statement (.adcZpX z) := of_opcode 0x75#8 rfl rfl rfl
theorem adcAbs (a : Word) : Statement (.adcAbs a) := of_opcode 0x6D#8 rfl rfl rfl
theorem adcAbsX (a : Word) : Statement (.adcAbsX a) := of_opcode 0x7D#8 rfl rfl rfl
theorem adcAbsY (a : Word) : Statement (.adcAbsY a) := of_opcode 0x79#8 rfl rfl rfl
theorem adcIndX (z : Byte) : Statement (.adcIndX z) := of_opcode 0x61#8 rfl rfl rfl
theorem adcIndY (z : Byte) : Statement (.adcIndY z) := of_opcode 0x71#8 rfl rfl rfl
theorem sbcImm (b : Byte) : Statement (.sbcImm b) := of_opcode 0xE9#8 rfl rfl rfl
theorem sbcZp (z : Byte) : Statement (.sbcZp z) := of_opcode 0xE5#8 rfl rfl rfl
theorem sbcZpX (z : Byte) : Statement (.sbcZpX z) := of_opcode 0xF5#8 rfl rfl rfl
theorem sbcAbs (a : Word) : Statement (.sbcAbs a) := of_opcode 0xED#8 rfl rfl rfl
theorem sbcAbsX (a : Word) : Statement (.sbcAbsX a) := of_opcode 0xFD#8 rfl rfl rfl
theorem sbcAbsY (a : Word) : Statement (.sbcAbsY a) := of_opcode 0xF9#8 rfl rfl rfl
theorem sbcIndX (z : Byte) : Statement (.sbcIndX z) := of_opcode 0xE1#8 rfl rfl rfl
theorem sbcIndY (z : Byte) : Statement (.sbcIndY z) := of_opcode 0xF1#8 rfl rfl rfl
theorem andImm (b : Byte) : Statement (.andImm b) := of_opcode 0x29#8 rfl rfl rfl
theorem andZp (z : Byte) : Statement (.andZp z) := of_opcode 0x25#8 rfl rfl rfl
theorem andZpX (z : Byte) : Statement (.andZpX z) := of_opcode 0x35#8 rfl rfl rfl
theorem andAbs (a : Word) : Statement (.andAbs a) := of_opcode 0x2D#8 rfl rfl rfl
theorem andAbsX (a : Word) : Statement (.andAbsX a) := of_opcode 0x3D#8 rfl rfl rfl
theorem andAbsY (a : Word) : Statement (.andAbsY a) := of_opcode 0x39#8 rfl rfl rfl
theorem andIndX (z : Byte) : Statement (.andIndX z) := of_opcode 0x21#8 rfl rfl rfl
theorem andIndY (z : Byte) : Statement (.andIndY z) := of_opcode 0x31#8 rfl rfl rfl
theorem oraImm (b : Byte) : Statement (.oraImm b) := of_opcode 0x09#8 rfl rfl rfl
theorem oraZp (z : Byte) : Statement (.oraZp z) := of_opcode 0x05#8 rfl rfl rfl
theorem oraZpX (z : Byte) : Statement (.oraZpX z) := of_opcode 0x15#8 rfl rfl rfl
theorem oraAbs (a : Word) : Statement (.oraAbs a) := of_opcode 0x0D#8 rfl rfl rfl
theorem oraAbsX (a : Word) : Statement (.oraAbsX a) := of_opcode 0x1D#8 rfl rfl rfl
theorem oraAbsY (a : Word) : Statement (.oraAbsY a) := of_opcode 0x19#8 rfl rfl rfl
theorem oraIndX (z : Byte) : Statement (.oraIndX z) := of_opcode 0x01#8 rfl rfl rfl
theorem oraIndY (z : Byte) : Statement (.oraIndY z) := of_opcode 0x11#8 rfl rfl rfl
theorem eorImm (b : Byte) : Statement (.eorImm b) := of_opcode 0x49#8 rfl rfl rfl
theorem eorZp (z : Byte) : Statement (.eorZp z) := of_opcode 0x45#8 rfl rfl rfl
theorem eorZpX (z : Byte) : Statement (.eorZpX z) := of_opcode 0x55#8 rfl rfl rfl
theorem eorAbs (a : Word) : Statement (.eorAbs a) := of_opcode 0x4D#8 rfl rfl rfl
theorem eorAbsX (a : Word) : Statement (.eorAbsX a) := of_opcode 0x5D#8 rfl rfl rfl
theorem eorAbsY (a : Word) : Statement (.eorAbsY a) := of_opcode 0x59#8 rfl rfl rfl
theorem eorIndX (z : Byte) : Statement (.eorIndX z) := of_opcode 0x41#8 rfl rfl rfl
theorem eorIndY (z : Byte) : Statement (.eorIndY z) := of_opcode 0x51#8 rfl rfl rfl
theorem cmpImm (b : Byte) : Statement (.cmpImm b) := of_opcode 0xC9#8 rfl rfl rfl
theorem cmpZp (z : Byte) : Statement (.cmpZp z) := of_opcode 0xC5#8 rfl rfl rfl
theorem cmpZpX (z : Byte) : Statement (.cmpZpX z) := of_opcode 0xD5#8 rfl rfl rfl
theorem cmpAbs (a : Word) : Statement (.cmpAbs a) := of_opcode 0xCD#8 rfl rfl rfl
theorem cmpAbsX (a : Word) : Statement (.cmpAbsX a) := of_opcode 0xDD#8 rfl rfl rfl
theorem cmpAbsY (a : Word) : Statement (.cmpAbsY a) := of_opcode 0xD9#8 rfl rfl rfl
theorem cmpIndX (z : Byte) : Statement (.cmpIndX z) := of_opcode 0xC1#8 rfl rfl rfl
theorem cmpIndY (z : Byte) : Statement (.cmpIndY z) := of_opcode 0xD1#8 rfl rfl rfl
theorem cpxImm (b : Byte) : Statement (.cpxImm b) := of_opcode 0xE0#8 rfl rfl rfl
theorem cpxZp (z : Byte) : Statement (.cpxZp z) := of_opcode 0xE4#8 rfl rfl rfl
theorem cpxAbs (a : Word) : Statement (.cpxAbs a) := of_opcode 0xEC#8 rfl rfl rfl
theorem cpyImm (b : Byte) : Statement (.cpyImm b) := of_opcode 0xC0#8 rfl rfl rfl
theorem cpyZp (z : Byte) : Statement (.cpyZp z) := of_opcode 0xC4#8 rfl rfl rfl
theorem cpyAbs (a : Word) : Statement (.cpyAbs a) := of_opcode 0xCC#8 rfl rfl rfl
theorem bitZp (z : Byte) : Statement (.bitZp z) := of_opcode 0x24#8 rfl rfl rfl
theorem bitAbs (a : Word) : Statement (.bitAbs a) := of_opcode 0x2C#8 rfl rfl rfl
theorem aslAcc : Statement .aslAcc := of_opcode 0x0A#8 rfl rfl rfl
theorem aslZp (z : Byte) : Statement (.aslZp z) := of_opcode 0x06#8 rfl rfl rfl
theorem aslZpX (z : Byte) : Statement (.aslZpX z) := of_opcode 0x16#8 rfl rfl rfl
theorem aslAbs (a : Word) : Statement (.aslAbs a) := of_opcode 0x0E#8 rfl rfl rfl
theorem aslAbsX (a : Word) : Statement (.aslAbsX a) := of_opcode 0x1E#8 rfl rfl rfl
theorem lsrAcc : Statement .lsrAcc := of_opcode 0x4A#8 rfl rfl rfl
theorem lsrZp (z : Byte) : Statement (.lsrZp z) := of_opcode 0x46#8 rfl rfl rfl
theorem lsrZpX (z : Byte) : Statement (.lsrZpX z) := of_opcode 0x56#8 rfl rfl rfl
theorem lsrAbs (a : Word) : Statement (.lsrAbs a) := of_opcode 0x4E#8 rfl rfl rfl
theorem lsrAbsX (a : Word) : Statement (.lsrAbsX a) := of_opcode 0x5E#8 rfl rfl rfl
theorem rolAcc : Statement .rolAcc := of_opcode 0x2A#8 rfl rfl rfl
theorem rolZp (z : Byte) : Statement (.rolZp z) := of_opcode 0x26#8 rfl rfl rfl
theorem rolZpX (z : Byte) : Statement (.rolZpX z) := of_opcode 0x36#8 rfl rfl rfl
theorem rolAbs (a : Word) : Statement (.rolAbs a) := of_opcode 0x2E#8 rfl rfl rfl
theorem rolAbsX (a : Word) : Statement (.rolAbsX a) := of_opcode 0x3E#8 rfl rfl rfl
theorem rorAcc : Statement .rorAcc := of_opcode 0x6A#8 rfl rfl rfl
theorem rorZp (z : Byte) : Statement (.rorZp z) := of_opcode 0x66#8 rfl rfl rfl
theorem rorZpX (z : Byte) : Statement (.rorZpX z) := of_opcode 0x76#8 rfl rfl rfl
theorem rorAbs (a : Word) : Statement (.rorAbs a) := of_opcode 0x6E#8 rfl rfl rfl
theorem rorAbsX (a : Word) : Statement (.rorAbsX a) := of_opcode 0x7E#8 rfl rfl rfl
theorem incZp (z : Byte) : Statement (.incZp z) := of_opcode 0xE6#8 rfl rfl rfl
theorem incZpX (z : Byte) : Statement (.incZpX z) := of_opcode 0xF6#8 rfl rfl rfl
theorem incAbs (a : Word) : Statement (.incAbs a) := of_opcode 0xEE#8 rfl rfl rfl
theorem incAbsX (a : Word) : Statement (.incAbsX a) := of_opcode 0xFE#8 rfl rfl rfl
theorem decZp (z : Byte) : Statement (.decZp z) := of_opcode 0xC6#8 rfl rfl rfl
theorem decZpX (z : Byte) : Statement (.decZpX z) := of_opcode 0xD6#8 rfl rfl rfl
theorem decAbs (a : Word) : Statement (.decAbs a) := of_opcode 0xCE#8 rfl rfl rfl
theorem decAbsX (a : Word) : Statement (.decAbsX a) := of_opcode 0xDE#8 rfl rfl rfl
theorem inx : Statement .inx := of_opcode 0xE8#8 rfl rfl rfl
theorem iny : Statement .iny := of_opcode 0xC8#8 rfl rfl rfl
theorem dex : Statement .dex := of_opcode 0xCA#8 rfl rfl rfl
theorem dey : Statement .dey := of_opcode 0x88#8 rfl rfl rfl
theorem bpl (off : Byte) : Statement (.bpl off) := of_opcode 0x10#8 rfl rfl rfl
theorem bmi (off : Byte) : Statement (.bmi off) := of_opcode 0x30#8 rfl rfl rfl
theorem bvc (off : Byte) : Statement (.bvc off) := of_opcode 0x50#8 rfl rfl rfl
theorem bvs (off : Byte) : Statement (.bvs off) := of_opcode 0x70#8 rfl rfl rfl
theorem bcc (off : Byte) : Statement (.bcc off) := of_opcode 0x90#8 rfl rfl rfl
theorem bcs (off : Byte) : Statement (.bcs off) := of_opcode 0xB0#8 rfl rfl rfl
theorem bne (off : Byte) : Statement (.bne off) := of_opcode 0xD0#8 rfl rfl rfl
theorem beq (off : Byte) : Statement (.beq off) := of_opcode 0xF0#8 rfl rfl rfl
theorem jmpAbs (a : Word) : Statement (.jmpAbs a) := of_opcode 0x4C#8 rfl rfl rfl
theorem jmpInd (ptr : Word) : Statement (.jmpInd ptr) := of_opcode 0x6C#8 rfl rfl rfl
theorem jsr (a : Word) : Statement (.jsr a) := of_opcode 0x20#8 rfl rfl rfl
theorem rts : Statement .rts := of_opcode 0x60#8 rfl rfl rfl
theorem brk : Statement .brk := of_opcode 0x00#8 rfl rfl rfl
theorem rti : Statement .rti := of_opcode 0x40#8 rfl rfl rfl
theorem clc : Statement .clc := of_opcode 0x18#8 rfl rfl rfl
theorem sec : Statement .sec := of_opcode 0x38#8 rfl rfl rfl
theorem cli : Statement .cli := of_opcode 0x58#8 rfl rfl rfl
theorem sei : Statement .sei := of_opcode 0x78#8 rfl rfl rfl
theorem clv : Statement .clv := of_opcode 0xB8#8 rfl rfl rfl
theorem cld : Statement .cld := of_opcode 0xD8#8 rfl rfl rfl
theorem sed : Statement .sed := of_opcode 0xF8#8 rfl rfl rfl
theorem nop : Statement .nop := of_opcode 0xEA#8 rfl rfl rfl

/-- The cell of every byte of R179's list is illegal. -/
theorem illegal_operandCount : ∀ op ∈ illegalOpcodes, operandCount (cellOf op) = 0 := by decide

theorem unknown (opcode : Byte) : Statement (.unknown opcode) := by
  intro h
  have := illegal_operandCount opcode (by simpa [Instr.wellFormed] using h)
  simp [encode, operandBytes, Instr.mode, Instr.opcode, this]

end Sys2Proof.Laws.EncodedLength
end

