-- ==== Sys2Proof/Laws/Safety.lean ====
section
/-! SUPPORT. The laws of the invariant and of exception entry: which updates keep State.Inv, that every bus write does, and
what takeException, returnFromException and resetSequence leave, written out. -/

namespace Sys2Proof.Machine

/-- The invariant rests on P, the memories, the SxROM registers and the cartridge alone. -/
theorem State.Inv.congr {s t : State} (h : s.Inv) (hp : t.p = s.p) (hr : t.ram = s.ram) (hq : t.prgRam = s.prgRam)
    (hc : t.chrRam = s.chrRam) (hx : t.sxrom = s.sxrom) (hk : t.cart = s.cart) : t.Inv := by
  obtain ⟨h1, h2, h3, h4, h5, h6, h7, h8, h9, h10, h11⟩ := h
  constructor <;> simp_all only [flag_eq]

/-- Writing any flag but B and bit 5 keeps the invariant. -/
theorem State.Inv.withFlag {s : State} (h : s.Inv) (f : Flag) (v : Bool) (hb : f ≠ .b) (hu : f ≠ .u) :
    (s.withFlag f v).Inv := by
  obtain ⟨h1, h2, h3, h4, h5, h6, h7, h8, h9, h10, h11⟩ := h
  refine ⟨?_, ?_, h3, h4, h5, h6, h7, h8, h9, h10, h11⟩
  · simpa [getFlag_setFlag, hu.symm] using h1
  · simpa [getFlag_setFlag, hb.symm] using h2

theorem toNat_serialBit (acc : BitVec 5) (b : BitVec 5) (n : Nat) (hacc : acc.toNat < 2 ^ n) :
    (acc ||| ((b &&& 1#5) <<< n)).toNat < 2 ^ (n + 1) := by
  have h1 : ((b &&& 1#5) <<< n).toNat < 2 ^ (n + 1) := by
    have hb : (b &&& 1#5).toNat ≤ 1 := by
      rw [BitVec.toNat_and]
      exact Nat.and_le_right
    have : (b &&& 1#5).toNat * 2 ^ n ≤ 1 * 2 ^ n := Nat.mul_le_mul_right _ hb
    rw [BitVec.toNat_shiftLeft, Nat.shiftLeft_eq]
    calc _ ≤ (b &&& 1#5).toNat * 2 ^ n := Nat.mod_le _ _
      _ < 2 ^ (n + 1) := by rw [Nat.pow_succ]; have := Nat.two_pow_pos n; omega
  rw [BitVec.toNat_or]
  exact Nat.or_lt_two_pow (by rw [Nat.pow_succ]; omega) h1

/-- A serial write keeps the count at most 4 and the accumulator below it (20_memory R121, R122). -/
theorem sxromWrite_serial (a : Word) (v : Byte) (g : Sxrom) (hc : g.writeCount.toNat ≤ 4)
    (hb : g.shiftAccumulator.toNat < 2 ^ g.writeCount.toNat) :
    (sxromWrite a v g).writeCount.toNat ≤ 4 ∧
      (sxromWrite a v g).shiftAccumulator.toNat < 2 ^ (sxromWrite a v g).writeCount.toNat := by
  unfold sxromWrite
  split
  · simp
  · simp only []
    split
    · simp
    · rename_i hne
      have hcount : (BitVec.ofNat 3 (g.writeCount.toNat + 1)).toNat = g.writeCount.toNat + 1 := by
        rw [BitVec.toNat_ofNat]
        omega
      refine ⟨by simp only [hcount]; omega, ?_⟩
      simp only [hcount]
      exact toNat_serialBit _ _ _ hb

/-- A bus write keeps the invariant: canonical memories within their sizes, a legal serial load. -/
theorem State.Inv.busWrite {s : State} (h : s.Inv) (a : Word) (v : Byte) : (busWrite a v s).Inv := by
  have hs : State.Inv { s with bus := ⟨.cpu, .write, a, v⟩ :: s.bus } := h.congr rfl rfl rfl rfl rfl rfl
  obtain ⟨h1, h2, h3, h4, h5, h6, h7, h8, h9, h10, h11⟩ := h
  unfold Machine.busWrite storeAt
  split
  · exact ⟨h1, h2, Memory.wf_write _ _ _ h3, Memory.below_write _ _ _ _ h4 (ramOffset_lt a), h5, h6, h7, h8, h9, h10, h11⟩
  · split
    · rw [dmaReads_frame]
      exact hs.congr rfl rfl rfl rfl rfl rfl
    · exact hs
  · exact hs
  · exact hs
  · exact hs
  · unfold prgStore
    split
    · exact ⟨h1, h2, h3, h4, Memory.wf_write _ _ _ h5, Memory.below_write _ _ _ _ h6 (prgRamOffset_lt a), h7, h8, h9, h10,
        h11⟩
    · split
      · exact hs
      · have hw := sxromWrite_serial a v s.sxrom h9 h10
        exact ⟨h1, h2, h3, h4, h5, h6, h7, h8, hw.1, hw.2, h11⟩
      · exact ⟨h1, h2, h3, h4, h5, h6, h7, h8, h9, h10, h11⟩
      · exact ⟨h1, h2, h3, h4, h5, h6, h7, h8, h9, h10, h11⟩

theorem State.Inv.push {s : State} (h : s.Inv) (v : Byte) : (push v s).Inv := by
  rw [Machine.push]
  exact (h.busWrite (stackAddress s.sp) v).congr rfl rfl rfl rfl rfl rfl

/-- A write of the CHR port keeps the invariant (20_memory R113). -/
theorem State.Inv.chrWrite {s : State} (h : s.Inv) (i : Nat) (v : Byte) : (chrWrite i v s).Inv := by
  unfold Machine.chrWrite
  split
  · exact { h with
      chrRamWf := Memory.wf_write _ _ _ h.chrRamWf
      chrRamBelow := Memory.below_write _ _ _ _ h.chrRamBelow (Nat.mod_lt _ (by decide)) }
  · exact h

/-- The vectors and the bytes after them lie in PRG-ROM space (20_memory R102). -/
theorem route_vector {v : Word} (h : 0xFFFA#16 ≤ v) : route v = .cartridge := by
  have h' : 0xFFFA ≤ v.toNat := by simpa [BitVec.le_def] using h
  have h1 : ¬ v ≤ 0x1FFF#16 := by simp only [BitVec.le_def, BitVec.toNat_ofNat]; omega
  have h2 : ¬ v ≤ 0x3FFF#16 := by simp only [BitVec.le_def, BitVec.toNat_ofNat]; omega
  have h3 : v ≠ 0x4014#16 := by rintro rfl; simp at h'
  have h4 : ¬ v ≤ 0x4015#16 := by simp only [BitVec.le_def, BitVec.toNat_ofNat]; omega
  have h5 : ¬ v ≤ 0x401F#16 := by simp only [BitVec.le_def, BitVec.toNat_ofNat]; omega
  have h6 : ¬ v ≤ 0x5FFF#16 := by simp only [BitVec.le_def, BitVec.toNat_ofNat]; omega
  simp [route, h1, h2, h3, h4, h5, h6]

/-- Taking an exception through a vector whose two bytes lie in PRG-ROM space leaves `afterEntry` (60 R347; 49 R320). -/
theorem takeException_eq (vector ret : Word) (brk : Bool) (s : State) (h1 : route vector = .cartridge)
    (h2 : route (vector + 1#16) = .cartridge) : takeException vector ret brk s = afterEntry vector ret brk s := by
  have p1 : isPort vector = false := by simp [isPort, h1]
  have p2 : isPort (vector + 1#16) = false := by simp [isPort, h2]
  have e2 : s.sp - 1#8 - 1#8 = s.sp - 2#8 := by bv_omega
  have e3 : s.sp - 2#8 - 1#8 = s.sp - 3#8 := by bv_omega
  have hi : ∀ p : Byte, setFlag .i true p = p ||| 0x04#8 := fun _ => rfl
  simp [takeException, pushWord, push_eq, afterEntry, e2, e3, readWord, State.withFlag, hi, busRead, p1, p2, pushedP,
    readValue, h1, h2, prgLoad, prgIndex]

/-- The return from an exception: three pulls, P by RestoreP, PC from the last two (49 R321). -/
theorem returnFromException_eq (s : State) :
    returnFromException s =
      { s with
        p := restoreP (s.ram.read (0x100 + (s.sp + 1#8).toNat))
        pc := mkWord (s.ram.read (0x100 + (s.sp + 3#8).toNat)) (s.ram.read (0x100 + (s.sp + 2#8).toNat))
        sp := s.sp + 3#8
        bus :=
          ⟨.cpu, .read, stackAddress (s.sp + 3#8), s.ram.read (0x100 + (s.sp + 3#8).toNat)⟩ ::
          ⟨.cpu, .read, stackAddress (s.sp + 2#8), s.ram.read (0x100 + (s.sp + 2#8).toNat)⟩ ::
          ⟨.cpu, .read, stackAddress (s.sp + 1#8), s.ram.read (0x100 + (s.sp + 1#8).toNat)⟩ :: s.bus } := by
  have e2 : s.sp + 1#8 + 1#8 = s.sp + 2#8 := by bv_omega
  have e3 : s.sp + 2#8 + 1#8 = s.sp + 3#8 := by bv_omega
  simp only [returnFromException, pullWord, pull_eq, e2, e3]

/-- The CPU reset keeps the invariant (70 R383). -/
theorem State.Inv.resetSequence {s : State} (h : s.Inv) : (resetSequence s).Inv :=
  (h.withFlag .i true (by decide) (by decide)).congr rfl rfl rfl rfl rfl rfl

/-- `State.reset` is power-on with the blank cartridge. -/
theorem powerOn_blankCartridge : powerOn blankCartridge = .ok State.reset := by rfl

end Sys2Proof.Machine
end

