-- ==== Sys2Proof/Tests/Slice0.lean ====
section
/-! SUPPORT. Tests: words written out from the opcode table, the step vectors of 95_test_vectors (computed there by hand from
the rules), and, for each obligation with hypotheses, a witness that meets them. -/

set_option maxRecDepth 20000

namespace Sys2Proof.Tests

open Sys2Proof
open Sys2Proof.Machine

/-! Well-formedness refuses an ill-formed term: `unknown` with the byte of a documented instruction. -/

theorem test_wellFormed_refuses : (Instr.unknown 0xEA#8).wellFormed = false := by decide

theorem test_wellFormed_accepts : (Instr.unknown 0x02#8).wellFormed = true ∧ (Instr.ldaImm 0xFF#8).wellFormed = true := by
  decide

/-! Decoding: one word for every constructor, from the opcode table (R177). A one-byte operand is 0x9C, a word 34 12. -/

/-- The bytes decode to the instruction and nothing is left. -/
def decodesTo (bytes : List Byte) (i : Instr) : Bool :=
  match decode bytes with
  | .ok (j, rest) => j == i && rest == []
  | .error _ => false

def words_loads_and_stores : List (List Byte × Instr) := [
  ([0xA9, 0x9C], .ldaImm 0x9C#8), ([0xA5, 0x9C], .ldaZp 0x9C#8), ([0xB5, 0x9C], .ldaZpX 0x9C#8),
  ([0xAD, 0x34, 0x12], .ldaAbs 0x1234#16), ([0xBD, 0x34, 0x12], .ldaAbsX 0x1234#16),
  ([0xB9, 0x34, 0x12], .ldaAbsY 0x1234#16), ([0xA1, 0x9C], .ldaIndX 0x9C#8), ([0xB1, 0x9C], .ldaIndY 0x9C#8),
  ([0xA2, 0x9C], .ldxImm 0x9C#8), ([0xA6, 0x9C], .ldxZp 0x9C#8), ([0xB6, 0x9C], .ldxZpY 0x9C#8),
  ([0xAE, 0x34, 0x12], .ldxAbs 0x1234#16), ([0xBE, 0x34, 0x12], .ldxAbsY 0x1234#16), ([0xA0, 0x9C], .ldyImm 0x9C#8),
  ([0xA4, 0x9C], .ldyZp 0x9C#8), ([0xB4, 0x9C], .ldyZpX 0x9C#8), ([0xAC, 0x34, 0x12], .ldyAbs 0x1234#16),
  ([0xBC, 0x34, 0x12], .ldyAbsX 0x1234#16), ([0x85, 0x9C], .staZp 0x9C#8), ([0x95, 0x9C], .staZpX 0x9C#8),
  ([0x8D, 0x34, 0x12], .staAbs 0x1234#16), ([0x9D, 0x34, 0x12], .staAbsX 0x1234#16),
  ([0x99, 0x34, 0x12], .staAbsY 0x1234#16), ([0x81, 0x9C], .staIndX 0x9C#8), ([0x91, 0x9C], .staIndY 0x9C#8),
  ([0x86, 0x9C], .stxZp 0x9C#8), ([0x96, 0x9C], .stxZpY 0x9C#8), ([0x8E, 0x34, 0x12], .stxAbs 0x1234#16),
  ([0x84, 0x9C], .styZp 0x9C#8), ([0x94, 0x9C], .styZpX 0x9C#8), ([0x8C, 0x34, 0x12], .styAbs 0x1234#16)]

theorem test_decode_loads_and_stores : ∀ e ∈ words_loads_and_stores, decodesTo e.1 e.2 = true := by decide

def words_transfers_and_stack : List (List Byte × Instr) := [
  ([0xAA], .tax), ([0xA8], .tay), ([0x8A], .txa), ([0x98], .tya), ([0xBA], .tsx), ([0x9A], .txs), ([0x48], .pha),
  ([0x08], .php), ([0x68], .pla), ([0x28], .plp)]

theorem test_decode_transfers_and_stack : ∀ e ∈ words_transfers_and_stack, decodesTo e.1 e.2 = true := by decide

def words_arithmetic : List (List Byte × Instr) := [
  ([0x69, 0x9C], .adcImm 0x9C#8), ([0x65, 0x9C], .adcZp 0x9C#8), ([0x75, 0x9C], .adcZpX 0x9C#8),
  ([0x6D, 0x34, 0x12], .adcAbs 0x1234#16), ([0x7D, 0x34, 0x12], .adcAbsX 0x1234#16),
  ([0x79, 0x34, 0x12], .adcAbsY 0x1234#16), ([0x61, 0x9C], .adcIndX 0x9C#8), ([0x71, 0x9C], .adcIndY 0x9C#8),
  ([0xE9, 0x9C], .sbcImm 0x9C#8), ([0xE5, 0x9C], .sbcZp 0x9C#8), ([0xF5, 0x9C], .sbcZpX 0x9C#8),
  ([0xED, 0x34, 0x12], .sbcAbs 0x1234#16), ([0xFD, 0x34, 0x12], .sbcAbsX 0x1234#16),
  ([0xF9, 0x34, 0x12], .sbcAbsY 0x1234#16), ([0xE1, 0x9C], .sbcIndX 0x9C#8), ([0xF1, 0x9C], .sbcIndY 0x9C#8)]

theorem test_decode_arithmetic : ∀ e ∈ words_arithmetic, decodesTo e.1 e.2 = true := by decide

def words_logical : List (List Byte × Instr) := [
  ([0x29, 0x9C], .andImm 0x9C#8), ([0x25, 0x9C], .andZp 0x9C#8), ([0x35, 0x9C], .andZpX 0x9C#8),
  ([0x2D, 0x34, 0x12], .andAbs 0x1234#16), ([0x3D, 0x34, 0x12], .andAbsX 0x1234#16),
  ([0x39, 0x34, 0x12], .andAbsY 0x1234#16), ([0x21, 0x9C], .andIndX 0x9C#8), ([0x31, 0x9C], .andIndY 0x9C#8),
  ([0x09, 0x9C], .oraImm 0x9C#8), ([0x05, 0x9C], .oraZp 0x9C#8), ([0x15, 0x9C], .oraZpX 0x9C#8),
  ([0x0D, 0x34, 0x12], .oraAbs 0x1234#16), ([0x1D, 0x34, 0x12], .oraAbsX 0x1234#16),
  ([0x19, 0x34, 0x12], .oraAbsY 0x1234#16), ([0x01, 0x9C], .oraIndX 0x9C#8), ([0x11, 0x9C], .oraIndY 0x9C#8),
  ([0x49, 0x9C], .eorImm 0x9C#8), ([0x45, 0x9C], .eorZp 0x9C#8), ([0x55, 0x9C], .eorZpX 0x9C#8),
  ([0x4D, 0x34, 0x12], .eorAbs 0x1234#16), ([0x5D, 0x34, 0x12], .eorAbsX 0x1234#16),
  ([0x59, 0x34, 0x12], .eorAbsY 0x1234#16), ([0x41, 0x9C], .eorIndX 0x9C#8), ([0x51, 0x9C], .eorIndY 0x9C#8)]

theorem test_decode_logical : ∀ e ∈ words_logical, decodesTo e.1 e.2 = true := by decide

def words_compares : List (List Byte × Instr) := [
  ([0xC9, 0x9C], .cmpImm 0x9C#8), ([0xC5, 0x9C], .cmpZp 0x9C#8), ([0xD5, 0x9C], .cmpZpX 0x9C#8),
  ([0xCD, 0x34, 0x12], .cmpAbs 0x1234#16), ([0xDD, 0x34, 0x12], .cmpAbsX 0x1234#16),
  ([0xD9, 0x34, 0x12], .cmpAbsY 0x1234#16), ([0xC1, 0x9C], .cmpIndX 0x9C#8), ([0xD1, 0x9C], .cmpIndY 0x9C#8),
  ([0xE0, 0x9C], .cpxImm 0x9C#8), ([0xE4, 0x9C], .cpxZp 0x9C#8), ([0xEC, 0x34, 0x12], .cpxAbs 0x1234#16),
  ([0xC0, 0x9C], .cpyImm 0x9C#8), ([0xC4, 0x9C], .cpyZp 0x9C#8), ([0xCC, 0x34, 0x12], .cpyAbs 0x1234#16),
  ([0x24, 0x9C], .bitZp 0x9C#8), ([0x2C, 0x34, 0x12], .bitAbs 0x1234#16)]

theorem test_decode_compares : ∀ e ∈ words_compares, decodesTo e.1 e.2 = true := by decide

def words_shifts : List (List Byte × Instr) := [
  ([0x0A], .aslAcc), ([0x06, 0x9C], .aslZp 0x9C#8), ([0x16, 0x9C], .aslZpX 0x9C#8),
  ([0x0E, 0x34, 0x12], .aslAbs 0x1234#16), ([0x1E, 0x34, 0x12], .aslAbsX 0x1234#16), ([0x4A], .lsrAcc),
  ([0x46, 0x9C], .lsrZp 0x9C#8), ([0x56, 0x9C], .lsrZpX 0x9C#8), ([0x4E, 0x34, 0x12], .lsrAbs 0x1234#16),
  ([0x5E, 0x34, 0x12], .lsrAbsX 0x1234#16), ([0x2A], .rolAcc), ([0x26, 0x9C], .rolZp 0x9C#8),
  ([0x36, 0x9C], .rolZpX 0x9C#8), ([0x2E, 0x34, 0x12], .rolAbs 0x1234#16), ([0x3E, 0x34, 0x12], .rolAbsX 0x1234#16),
  ([0x6A], .rorAcc), ([0x66, 0x9C], .rorZp 0x9C#8), ([0x76, 0x9C], .rorZpX 0x9C#8),
  ([0x6E, 0x34, 0x12], .rorAbs 0x1234#16), ([0x7E, 0x34, 0x12], .rorAbsX 0x1234#16)]

theorem test_decode_shifts : ∀ e ∈ words_shifts, decodesTo e.1 e.2 = true := by decide

def words_increments : List (List Byte × Instr) := [
  ([0xE6, 0x9C], .incZp 0x9C#8), ([0xF6, 0x9C], .incZpX 0x9C#8), ([0xEE, 0x34, 0x12], .incAbs 0x1234#16),
  ([0xFE, 0x34, 0x12], .incAbsX 0x1234#16), ([0xC6, 0x9C], .decZp 0x9C#8), ([0xD6, 0x9C], .decZpX 0x9C#8),
  ([0xCE, 0x34, 0x12], .decAbs 0x1234#16), ([0xDE, 0x34, 0x12], .decAbsX 0x1234#16), ([0xE8], .inx), ([0xC8], .iny),
  ([0xCA], .dex), ([0x88], .dey)]

theorem test_decode_increments : ∀ e ∈ words_increments, decodesTo e.1 e.2 = true := by decide

def words_control : List (List Byte × Instr) := [
  ([0x10, 0x9C], .bpl 0x9C#8), ([0x30, 0x9C], .bmi 0x9C#8), ([0x50, 0x9C], .bvc 0x9C#8), ([0x70, 0x9C], .bvs 0x9C#8),
  ([0x90, 0x9C], .bcc 0x9C#8), ([0xB0, 0x9C], .bcs 0x9C#8), ([0xD0, 0x9C], .bne 0x9C#8), ([0xF0, 0x9C], .beq 0x9C#8),
  ([0x4C, 0x34, 0x12], .jmpAbs 0x1234#16), ([0x6C, 0x34, 0x12], .jmpInd 0x1234#16),
  ([0x20, 0x34, 0x12], .jsr 0x1234#16), ([0x60], .rts)]

theorem test_decode_control : ∀ e ∈ words_control, decodesTo e.1 e.2 = true := by decide

def words_system : List (List Byte × Instr) := [
  ([0x00], .brk), ([0x40], .rti), ([0x18], .clc), ([0x38], .sec), ([0x58], .cli), ([0x78], .sei), ([0xB8], .clv),
  ([0xD8], .cld), ([0xF8], .sed), ([0xEA], .nop)]

theorem test_decode_system : ∀ e ∈ words_system, decodesTo e.1 e.2 = true := by decide

/-- An illegal byte decodes to itself and leaves the byte after it; a missing operand is refused. -/
theorem test_decode_illegal :
    decode [0x02#8, 0xEA#8] = .ok (.unknown 0x02#8, [0xEA#8]) ∧ decode [0xFF#8] = .ok (.unknown 0xFF#8, []) ∧
    decode [0xAD#8, 0x34#8] = .error (.missingOperand 0xAD#8) ∧ decode [] = .error .noOpcode :=
  ⟨rfl, rfl, rfl, rfl⟩

theorem test_decodeTableWord :
    decodeTableWord 8 0xEA = some .nop ∧ decodeTableWord 16 0x9CA9 = some (.ldaImm 0x9C#8) ∧
    decodeTableWord 24 0x12348D = some (.staAbs 0x1234#16) ∧ decodeTableWord 8 0xAD = some (.ldaAbs 0#16) := by decide

/-- Assembler text (R181). -/
theorem test_assemblyText :
    assemblyText (.ldaImm 0x00#8) = "LDA #$00" ∧ assemblyText (.jmpInd 0x02FF#16) = "JMP ($02FF)" ∧
    assemblyText .aslAcc = "ASL A" := by decide

/-! One step: the vectors of 95_test_vectors. -/

/-- One bank of NROM: the bytes at an address, the vectors NMI C000, RESET 8000, IRQ 9000. -/
def cartridgeWith (pc : Word) (bytes : List Byte) : Cartridge :=
  (placeBytes pc bytes
    { State.reset with
      cart := { blankCartridge with prgRom := [(0x3FFB, 0xC0#8), (0x3FFD, 0x80#8), (0x3FFF, 0x90#8)] } }).cart

/-- The power-on state with the bytes at PC. -/
def machine (pc : Word) (bytes : List Byte) : State :=
  { State.reset with pc := pc, cart := cartridgeWith pc bytes, bus := [] }

/-- A row of Part 2: the address and bytes, A, X, Y, S, P and RAM before, the same and PC after, and the cycle count. -/
structure StepVector where
  addr : Word
  bytes : List Byte
  regs : List Byte
  ram : Memory
  regs' : List Byte
  pc' : Word
  ram' : Memory
  cycles : Nat

/-- Whether the model's step gives what the row says. -/
def StepVector.holds (v : StepVector) : Bool :=
  let s := { machine v.addr v.bytes with
    a := v.regs.getD 0 0#8, x := v.regs.getD 1 0#8, y := v.regs.getD 2 0#8, sp := v.regs.getD 3 0#8,
    p := v.regs.getD 4 0#8, ram := v.ram }
  match step s with
  | .next t => [t.a, t.x, t.y, t.sp, t.p] == v.regs' && t.pc == v.pc' && t.ram == v.ram' && t.stepCycles == v.cycles
  | .fault _ => false
  | .refused _ => false

/-- 95_test_vectors 2.1. -/
def vectors_modes : List StepVector := [
  ⟨0x8000, [0xBD, 0xFF, 0xFF], [0x00, 0x01, 0x00, 0xFD, 0x2C], [(0x0, 0x5E)], [0x5E, 0x01, 0x00, 0xFD, 0x2C], 0x8003, [(0x0, 0x5E)], 5⟩,
  ⟨0x8000, [0xB5, 0xF0], [0x00, 0x20, 0x00, 0xFD, 0x2C], [(0x10, 0x01)], [0x01, 0x20, 0x00, 0xFD, 0x2C], 0x8002, [(0x10, 0x01)], 4⟩,
  ⟨0x8000, [0xA1, 0xFF], [0x00, 0x02, 0x00, 0xFD, 0x2C], [(0x2, 0x03), (0x300, 0x44)], [0x44, 0x02, 0x00, 0xFD, 0x2C], 0x8002, [(0x2, 0x03), (0x300, 0x44)], 6⟩,
  ⟨0x8000, [0xB9, 0x80, 0x02], [0x00, 0x00, 0x80, 0xFD, 0x2C], [(0x300, 0x01)], [0x01, 0x00, 0x80, 0xFD, 0x2C], 0x8003, [(0x300, 0x01)], 5⟩]

theorem test_modes : ∀ v ∈ vectors_modes, v.holds = true := by decide

/-- 95_test_vectors 2.2. -/
def vectors_loads_and_stores : List StepVector := [
  ⟨0x8000, [0xA9, 0x80], [0x00, 0x00, 0x00, 0xFD, 0x2C], [], [0x80, 0x00, 0x00, 0xFD, 0xAC], 0x8002, [], 2⟩,
  ⟨0x8000, [0xA5, 0x10], [0x00, 0x00, 0x00, 0xFD, 0x2C], [(0x10, 0x42)], [0x42, 0x00, 0x00, 0xFD, 0x2C], 0x8002, [(0x10, 0x42)], 3⟩,
  ⟨0x8000, [0xBD, 0xFF, 0x12], [0x00, 0x01, 0x00, 0xFD, 0x2C], [(0x300, 0x07)], [0x07, 0x01, 0x00, 0xFD, 0x2C], 0x8003, [(0x300, 0x07)], 5⟩,
  ⟨0x8000, [0xBD, 0x00, 0x12], [0x00, 0x01, 0x00, 0xFD, 0x2C], [(0x201, 0x07)], [0x07, 0x01, 0x00, 0xFD, 0x2C], 0x8003, [(0x201, 0x07)], 4⟩,
  ⟨0x8000, [0xB1, 0xFF], [0x00, 0x00, 0x02, 0xFD, 0x2C], [(0x0, 0x03), (0x302, 0x99)], [0x99, 0x00, 0x02, 0xFD, 0xAC], 0x8002, [(0x0, 0x03), (0x302, 0x99)], 5⟩,
  ⟨0x8000, [0xB1, 0x20], [0x00, 0x00, 0x10, 0xFD, 0x2C], [(0x20, 0xF8), (0x21, 0x02)], [0x00, 0x00, 0x10, 0xFD, 0x2E], 0x8002, [(0x20, 0xF8), (0x21, 0x02)], 6⟩,
  ⟨0x8000, [0xB6, 0xF0], [0x00, 0x00, 0x20, 0xFD, 0x2C], [(0x10, 0x55)], [0x00, 0x55, 0x20, 0xFD, 0x2C], 0x8002, [(0x10, 0x55)], 4⟩,
  ⟨0x8000, [0xBC, 0x00, 0x04], [0x00, 0x05, 0x00, 0xFD, 0x2C], [(0x405, 0xFF)], [0x00, 0x05, 0xFF, 0xFD, 0xAC], 0x8003, [(0x405, 0xFF)], 4⟩,
  ⟨0x8000, [0x9D, 0xFF, 0x02], [0x5A, 0x01, 0x00, 0xFD, 0x2C], [], [0x5A, 0x01, 0x00, 0xFD, 0x2C], 0x8003, [(0x300, 0x5A)], 5⟩,
  ⟨0x8000, [0x81, 0xFE], [0x77, 0x01, 0x00, 0xFD, 0x2C], [(0x0, 0x05), (0xFF, 0x34)], [0x77, 0x01, 0x00, 0xFD, 0x2C], 0x8002, [(0x0, 0x05), (0xFF, 0x34), (0x534, 0x77)], 6⟩,
  ⟨0x8000, [0x8D, 0x10, 0x18], [0xAB, 0x00, 0x00, 0xFD, 0x2C], [], [0xAB, 0x00, 0x00, 0xFD, 0x2C], 0x8003, [(0x10, 0xAB)], 4⟩,
  ⟨0x8000, [0x96, 0x80], [0x00, 0x11, 0x90, 0xFD, 0x2C], [], [0x00, 0x11, 0x90, 0xFD, 0x2C], 0x8002, [(0x10, 0x11)], 4⟩,
  ⟨0x8000, [0x8C, 0x00, 0x02], [0x00, 0x00, 0x00, 0xFD, 0xA5], [], [0x00, 0x00, 0x00, 0xFD, 0xA5], 0x8003, [], 4⟩,
  ⟨0x8000, [0x8D, 0x00, 0x90], [0x12, 0x00, 0x00, 0xFD, 0x2C], [], [0x12, 0x00, 0x00, 0xFD, 0x2C], 0x8003, [], 4⟩,
  ⟨0x8000, [0xAD, 0x00, 0x50], [0x12, 0x00, 0x00, 0xFD, 0x2C], [], [0x00, 0x00, 0x00, 0xFD, 0x2E], 0x8003, [], 4⟩]

theorem test_loads_and_stores : ∀ v ∈ vectors_loads_and_stores, v.holds = true := by decide

/-- 95_test_vectors 2.3. -/
def vectors_transfers : List StepVector := [
  ⟨0x8000, [0xAA], [0x00, 0x33, 0x00, 0xFD, 0x24], [], [0x00, 0x00, 0x00, 0xFD, 0x26], 0x8001, [], 2⟩,
  ⟨0x8000, [0xA8], [0x90, 0x00, 0x00, 0xFD, 0x2C], [], [0x90, 0x00, 0x90, 0xFD, 0xAC], 0x8001, [], 2⟩,
  ⟨0x8000, [0x8A], [0x00, 0x01, 0x00, 0xFD, 0xA6], [], [0x01, 0x01, 0x00, 0xFD, 0x24], 0x8001, [], 2⟩,
  ⟨0x8000, [0x98], [0x00, 0x00, 0xFF, 0xFD, 0x2C], [], [0xFF, 0x00, 0xFF, 0xFD, 0xAC], 0x8001, [], 2⟩,
  ⟨0x8000, [0xBA], [0x00, 0x00, 0x00, 0xFD, 0x2C], [], [0x00, 0xFD, 0x00, 0xFD, 0xAC], 0x8001, [], 2⟩,
  ⟨0x8000, [0x9A], [0x00, 0x00, 0x00, 0xFD, 0x2C], [], [0x00, 0x00, 0x00, 0x00, 0x2C], 0x8001, [], 2⟩]

theorem test_transfers : ∀ v ∈ vectors_transfers, v.holds = true := by decide

/-- 95_test_vectors 2.4. -/
def vectors_stack : List StepVector := [
  ⟨0x8000, [0x48], [0x9C, 0x00, 0x00, 0xFD, 0x2C], [], [0x9C, 0x00, 0x00, 0xFC, 0x2C], 0x8001, [(0x1FD, 0x9C)], 3⟩,
  ⟨0x8000, [0x08], [0x00, 0x00, 0x00, 0xFD, 0x2C], [], [0x00, 0x00, 0x00, 0xFC, 0x2C], 0x8001, [(0x1FD, 0x3C)], 3⟩,
  ⟨0x8000, [0x08], [0x00, 0x00, 0x00, 0xFD, 0xEF], [], [0x00, 0x00, 0x00, 0xFC, 0xEF], 0x8001, [(0x1FD, 0xFF)], 3⟩,
  ⟨0x8000, [0x68], [0x55, 0x00, 0x00, 0xFC, 0x2C], [], [0x00, 0x00, 0x00, 0xFD, 0x2E], 0x8001, [], 4⟩,
  ⟨0x8000, [0x28], [0x00, 0x00, 0x00, 0xFC, 0x2C], [(0x1FD, 0xFF)], [0x00, 0x00, 0x00, 0xFD, 0xEF], 0x8001, [(0x1FD, 0xFF)], 4⟩,
  ⟨0x8000, [0x28], [0x00, 0x00, 0x00, 0xFC, 0xE7], [], [0x00, 0x00, 0x00, 0xFD, 0x20], 0x8001, [], 4⟩,
  ⟨0x8000, [0x48], [0x01, 0x00, 0x00, 0x00, 0x2C], [], [0x01, 0x00, 0x00, 0xFF, 0x2C], 0x8001, [(0x100, 0x01)], 3⟩,
  ⟨0x8000, [0x68], [0x00, 0x00, 0x00, 0xFF, 0x2C], [(0x100, 0x80)], [0x80, 0x00, 0x00, 0x00, 0xAC], 0x8001, [(0x100, 0x80)], 4⟩]

theorem test_stack : ∀ v ∈ vectors_stack, v.holds = true := by decide

/-- 95_test_vectors 2.5. -/
def vectors_arithmetic : List StepVector := [
  ⟨0x8000, [0x69, 0x00], [0xFF, 0x00, 0x00, 0xFD, 0x25], [], [0x00, 0x00, 0x00, 0xFD, 0x27], 0x8002, [], 2⟩,
  ⟨0x8000, [0x69, 0x01], [0x7F, 0x00, 0x00, 0xFD, 0x24], [], [0x80, 0x00, 0x00, 0xFD, 0xE4], 0x8002, [], 2⟩,
  ⟨0x8000, [0x69, 0x80], [0x80, 0x00, 0x00, 0xFD, 0x24], [], [0x00, 0x00, 0x00, 0xFD, 0x67], 0x8002, [], 2⟩,
  ⟨0x8000, [0x69, 0x50], [0x50, 0x00, 0x00, 0xFD, 0x24], [], [0xA0, 0x00, 0x00, 0xFD, 0xE4], 0x8002, [], 2⟩,
  ⟨0x8000, [0x69, 0x90], [0xD0, 0x00, 0x00, 0xFD, 0x24], [], [0x60, 0x00, 0x00, 0xFD, 0x65], 0x8002, [], 2⟩,
  ⟨0x8000, [0x69, 0x01], [0x09, 0x00, 0x00, 0xFD, 0x2C], [], [0x0A, 0x00, 0x00, 0xFD, 0x2C], 0x8002, [], 2⟩,
  ⟨0x8000, [0x79, 0xF0, 0x02], [0x01, 0x00, 0x20, 0xFD, 0x2C], [(0x310, 0x01)], [0x02, 0x00, 0x20, 0xFD, 0x2C], 0x8003, [(0x310, 0x01)], 5⟩,
  ⟨0x8000, [0xE9, 0x01], [0x00, 0x00, 0x00, 0xFD, 0x25], [], [0xFF, 0x00, 0x00, 0xFD, 0xA4], 0x8002, [], 2⟩,
  ⟨0x8000, [0xE9, 0x01], [0x80, 0x00, 0x00, 0xFD, 0x25], [], [0x7F, 0x00, 0x00, 0xFD, 0x65], 0x8002, [], 2⟩,
  ⟨0x8000, [0xE9, 0x50], [0x50, 0x00, 0x00, 0xFD, 0x25], [], [0x00, 0x00, 0x00, 0xFD, 0x27], 0x8002, [], 2⟩,
  ⟨0x8000, [0xE9, 0x05], [0x05, 0x00, 0x00, 0xFD, 0x24], [], [0xFF, 0x00, 0x00, 0xFD, 0xA4], 0x8002, [], 2⟩,
  ⟨0x8000, [0xE9, 0xF0], [0x50, 0x00, 0x00, 0xFD, 0x25], [], [0x60, 0x00, 0x00, 0xFD, 0x24], 0x8002, [], 2⟩,
  ⟨0x8000, [0xE9, 0xB0], [0x50, 0x00, 0x00, 0xFD, 0x25], [], [0xA0, 0x00, 0x00, 0xFD, 0xE4], 0x8002, [], 2⟩]

theorem test_arithmetic : ∀ v ∈ vectors_arithmetic, v.holds = true := by decide

/-- 95_test_vectors 2.6. -/
def vectors_logical : List StepVector := [
  ⟨0x8000, [0x29, 0x0F], [0xF0, 0x00, 0x00, 0xFD, 0x2C], [], [0x00, 0x00, 0x00, 0xFD, 0x2E], 0x8002, [], 2⟩,
  ⟨0x8000, [0x29, 0x80], [0xFF, 0x00, 0x00, 0xFD, 0x2C], [], [0x80, 0x00, 0x00, 0xFD, 0xAC], 0x8002, [], 2⟩,
  ⟨0x8000, [0x09, 0x81], [0x02, 0x00, 0x00, 0xFD, 0x2C], [], [0x83, 0x00, 0x00, 0xFD, 0xAC], 0x8002, [], 2⟩,
  ⟨0x8000, [0x49, 0xAA], [0xAA, 0x00, 0x00, 0xFD, 0x2C], [], [0x00, 0x00, 0x00, 0xFD, 0x2E], 0x8002, [], 2⟩,
  ⟨0x8000, [0x41, 0x10], [0x0F, 0x02, 0x00, 0xFD, 0x2C], [(0x13, 0x03), (0x300, 0xFF)], [0xF0, 0x02, 0x00, 0xFD, 0xAC], 0x8002, [(0x13, 0x03), (0x300, 0xFF)], 6⟩]

theorem test_logical : ∀ v ∈ vectors_logical, v.holds = true := by decide

/-- 95_test_vectors 2.7. -/
def vectors_compares : List StepVector := [
  ⟨0x8000, [0xC9, 0x40], [0x40, 0x00, 0x00, 0xFD, 0x2C], [], [0x40, 0x00, 0x00, 0xFD, 0x2F], 0x8002, [], 2⟩,
  ⟨0x8000, [0xC9, 0x41], [0x40, 0x00, 0x00, 0xFD, 0x2C], [], [0x40, 0x00, 0x00, 0xFD, 0xAC], 0x8002, [], 2⟩,
  ⟨0x8000, [0xC9, 0x01], [0xFF, 0x00, 0x00, 0xFD, 0x2C], [], [0xFF, 0x00, 0x00, 0xFD, 0xAD], 0x8002, [], 2⟩,
  ⟨0x8000, [0xE0, 0x10], [0x00, 0x20, 0x00, 0xFD, 0x2C], [], [0x00, 0x20, 0x00, 0xFD, 0x2D], 0x8002, [], 2⟩,
  ⟨0x8000, [0xC0, 0x80], [0x00, 0x00, 0x7F, 0xFD, 0x2C], [], [0x00, 0x00, 0x7F, 0xFD, 0xAC], 0x8002, [], 2⟩,
  ⟨0x8000, [0x24, 0x10], [0x01, 0x00, 0x00, 0xFD, 0x2C], [(0x10, 0xC0)], [0x01, 0x00, 0x00, 0xFD, 0xEE], 0x8002, [(0x10, 0xC0)], 3⟩,
  ⟨0x8000, [0x2C, 0x00, 0x02], [0x01, 0x00, 0x00, 0xFD, 0xE4], [(0x200, 0x01)], [0x01, 0x00, 0x00, 0xFD, 0x24], 0x8003, [(0x200, 0x01)], 4⟩]

theorem test_compares : ∀ v ∈ vectors_compares, v.holds = true := by decide

/-- 95_test_vectors 2.8. -/
def vectors_shifts : List StepVector := [
  ⟨0x8000, [0x0A], [0x80, 0x00, 0x00, 0xFD, 0x2C], [], [0x00, 0x00, 0x00, 0xFD, 0x2F], 0x8001, [], 2⟩,
  ⟨0x8000, [0x06, 0x10], [0x00, 0x00, 0x00, 0xFD, 0x2C], [(0x10, 0x41)], [0x00, 0x00, 0x00, 0xFD, 0xAC], 0x8002, [(0x10, 0x82)], 5⟩,
  ⟨0x8000, [0x4A], [0x01, 0x00, 0x00, 0xFD, 0x2C], [], [0x00, 0x00, 0x00, 0xFD, 0x2F], 0x8001, [], 2⟩,
  ⟨0x8000, [0x2A], [0x80, 0x00, 0x00, 0xFD, 0x25], [], [0x01, 0x00, 0x00, 0xFD, 0x25], 0x8001, [], 2⟩,
  ⟨0x8000, [0x6A], [0x01, 0x00, 0x00, 0xFD, 0x25], [], [0x80, 0x00, 0x00, 0xFD, 0xA5], 0x8001, [], 2⟩,
  ⟨0x8000, [0x7E, 0x00, 0x02], [0x00, 0x01, 0x00, 0xFD, 0x2C], [(0x201, 0x02)], [0x00, 0x01, 0x00, 0xFD, 0x2C], 0x8003, [(0x201, 0x01)], 7⟩]

theorem test_shifts : ∀ v ∈ vectors_shifts, v.holds = true := by decide

/-- 95_test_vectors 2.9. -/
def vectors_increments : List StepVector := [
  ⟨0x8000, [0xE6, 0x10], [0x00, 0x00, 0x00, 0xFD, 0x2C], [(0x10, 0xFF)], [0x00, 0x00, 0x00, 0xFD, 0x2E], 0x8002, [], 5⟩,
  ⟨0x8000, [0xCE, 0x00, 0x03], [0x00, 0x00, 0x00, 0xFD, 0x2C], [], [0x00, 0x00, 0x00, 0xFD, 0xAC], 0x8003, [(0x300, 0xFF)], 6⟩,
  ⟨0x8000, [0xE8], [0x00, 0x7F, 0x00, 0xFD, 0x2C], [], [0x00, 0x80, 0x00, 0xFD, 0xAC], 0x8001, [], 2⟩,
  ⟨0x8000, [0xC8], [0x00, 0x00, 0xFF, 0xFD, 0x2C], [], [0x00, 0x00, 0x00, 0xFD, 0x2E], 0x8001, [], 2⟩,
  ⟨0x8000, [0xCA], [0x00, 0x01, 0x00, 0xFD, 0x2C], [], [0x00, 0x00, 0x00, 0xFD, 0x2E], 0x8001, [], 2⟩,
  ⟨0x8000, [0x88], [0x00, 0x00, 0x00, 0xFD, 0x2C], [], [0x00, 0x00, 0xFF, 0xFD, 0xAC], 0x8001, [], 2⟩]

theorem test_increments : ∀ v ∈ vectors_increments, v.holds = true := by decide

/-- 95_test_vectors 2.10. -/
def vectors_control : List StepVector := [
  ⟨0x8000, [0xF0, 0x10], [0x00, 0x00, 0x00, 0xFD, 0x24], [], [0x00, 0x00, 0x00, 0xFD, 0x24], 0x8002, [], 2⟩,
  ⟨0x8000, [0xD0, 0x10], [0x00, 0x00, 0x00, 0xFD, 0x24], [], [0x00, 0x00, 0x00, 0xFD, 0x24], 0x8012, [], 3⟩,
  ⟨0x8000, [0xD0, 0xFC], [0x00, 0x00, 0x00, 0xFD, 0x24], [], [0x00, 0x00, 0x00, 0xFD, 0x24], 0x7FFE, [], 4⟩,
  ⟨0x8000, [0x10, 0x00], [0x00, 0x00, 0x00, 0xFD, 0x24], [], [0x00, 0x00, 0x00, 0xFD, 0x24], 0x8002, [], 3⟩,
  ⟨0x8000, [0x30, 0x7F], [0x00, 0x00, 0x00, 0xFD, 0xA4], [], [0x00, 0x00, 0x00, 0xFD, 0xA4], 0x8081, [], 3⟩,
  ⟨0x8000, [0x50, 0x02], [0x00, 0x00, 0x00, 0xFD, 0x24], [], [0x00, 0x00, 0x00, 0xFD, 0x24], 0x8004, [], 3⟩,
  ⟨0x8000, [0x70, 0x02], [0x00, 0x00, 0x00, 0xFD, 0x24], [], [0x00, 0x00, 0x00, 0xFD, 0x24], 0x8002, [], 2⟩,
  ⟨0x80F0, [0x90, 0x80], [0x00, 0x00, 0x00, 0xFD, 0x24], [], [0x00, 0x00, 0x00, 0xFD, 0x24], 0x8072, [], 3⟩,
  ⟨0x80F0, [0xB0, 0x7F], [0x00, 0x00, 0x00, 0xFD, 0x25], [], [0x00, 0x00, 0x00, 0xFD, 0x25], 0x8171, [], 4⟩,
  ⟨0x8000, [0x4C, 0x34, 0x12], [0x00, 0x00, 0x00, 0xFD, 0x2C], [], [0x00, 0x00, 0x00, 0xFD, 0x2C], 0x1234, [], 3⟩,
  ⟨0x8000, [0x6C, 0xFF, 0x03], [0x00, 0x00, 0x00, 0xFD, 0x2C], [(0x300, 0x90), (0x400, 0x10)], [0x00, 0x00, 0x00, 0xFD, 0x2C], 0x9000, [(0x300, 0x90), (0x400, 0x10)], 5⟩,
  ⟨0x8000, [0x20, 0x00, 0x90], [0x00, 0x00, 0x00, 0xFD, 0x2C], [], [0x00, 0x00, 0x00, 0xFB, 0x2C], 0x9000, [(0x1FC, 0x02), (0x1FD, 0x80)], 6⟩,
  ⟨0x8000, [0x60], [0x00, 0x00, 0x00, 0xFB, 0x2C], [(0x1FC, 0x02), (0x1FD, 0x90)], [0x00, 0x00, 0x00, 0xFD, 0x2C], 0x9003, [(0x1FC, 0x02), (0x1FD, 0x90)], 6⟩,
  ⟨0x8000, [0x60], [0x00, 0x00, 0x00, 0xFE, 0x2C], [(0x100, 0x12), (0x1FF, 0xFF)], [0x00, 0x00, 0x00, 0x00, 0x2C], 0x1300, [(0x100, 0x12), (0x1FF, 0xFF)], 6⟩]

theorem test_control : ∀ v ∈ vectors_control, v.holds = true := by decide

/-- 95_test_vectors 2.11. -/
def vectors_system : List StepVector := [
  ⟨0x8000, [0x00, 0xEA], [0x00, 0x00, 0x00, 0xFD, 0x20], [], [0x00, 0x00, 0x00, 0xFA, 0x24], 0x9000, [(0x1FB, 0x30), (0x1FC, 0x02), (0x1FD, 0x80)], 7⟩,
  ⟨0x8000, [0x00, 0xEA], [0x00, 0x00, 0x00, 0xFD, 0x2C], [], [0x00, 0x00, 0x00, 0xFA, 0x2C], 0x9000, [(0x1FB, 0x3C), (0x1FC, 0x02), (0x1FD, 0x80)], 7⟩,
  ⟨0x8000, [0x40], [0x00, 0x00, 0x00, 0xFA, 0x2C], [(0x1FB, 0xD3), (0x1FC, 0x34), (0x1FD, 0x12)], [0x00, 0x00, 0x00, 0xFD, 0xE3], 0x1234, [(0x1FB, 0xD3), (0x1FC, 0x34), (0x1FD, 0x12)], 6⟩,
  ⟨0x8000, [0x18], [0x00, 0x00, 0x00, 0xFD, 0x65], [], [0x00, 0x00, 0x00, 0xFD, 0x64], 0x8001, [], 2⟩,
  ⟨0x8000, [0x38], [0x00, 0x00, 0x00, 0xFD, 0x20], [], [0x00, 0x00, 0x00, 0xFD, 0x21], 0x8001, [], 2⟩,
  ⟨0x8000, [0x58], [0x00, 0x00, 0x00, 0xFD, 0x65], [], [0x00, 0x00, 0x00, 0xFD, 0x61], 0x8001, [], 2⟩,
  ⟨0x8000, [0x78], [0x00, 0x00, 0x00, 0xFD, 0x20], [], [0x00, 0x00, 0x00, 0xFD, 0x24], 0x8001, [], 2⟩,
  ⟨0x8000, [0xB8], [0x00, 0x00, 0x00, 0xFD, 0x65], [], [0x00, 0x00, 0x00, 0xFD, 0x25], 0x8001, [], 2⟩,
  ⟨0x8000, [0xD8], [0x00, 0x00, 0x00, 0xFD, 0x6D], [], [0x00, 0x00, 0x00, 0xFD, 0x65], 0x8001, [], 2⟩,
  ⟨0x8000, [0xF8], [0x00, 0x00, 0x00, 0xFD, 0x20], [], [0x00, 0x00, 0x00, 0xFD, 0x28], 0x8001, [], 2⟩,
  ⟨0x8000, [0xEA], [0x00, 0x00, 0x00, 0xFD, 0x65], [], [0x00, 0x00, 0x00, 0xFD, 0x65], 0x8001, [], 2⟩]

theorem test_system : ∀ v ∈ vectors_system, v.holds = true := by decide

/-! Interrupts and the halt: 95_test_vectors 2.12. -/

/-- What a test of an interrupt or a halt looks at: S, P, PC, the top of the stack, the latches and the cycle count. -/
def entryView (o : Host.Outcome State Fault Refusal) : Option ((Byte × Byte × Word) × Memory × Bool × Bool × Nat) :=
  match o with
  | .next t => some ((t.sp, t.p, t.pc), t.ram, t.nmiPending, t.irqPending, t.stepCycles)
  | .fault _ => none
  | .refused _ => none

/-- V60.1. -/
theorem test_nmi_entry :
    (entryView (step { machine 0x8123#16 [0xEA] with p := 0xE3, nmiPending := true }) ==
      some ((0xFA, 0xE7, 0xC000), [(0x1FB, 0xE3), (0x1FC, 0x23), (0x1FD, 0x81)], false, false, 7)) = true := by decide

/-- V60.2. -/
theorem test_irq_masked :
    (entryView (step { machine 0x8000#16 [0xEA] with irqPending := true }) ==
      some ((0xFD, 0x2C, 0x8001), [], false, true, 2)) = true := by decide

/-- V60.3. -/
theorem test_irq_entry :
    (entryView (step { machine 0x8000#16 [0xEA] with p := 0x20, irqPending := true }) ==
      some ((0xFA, 0x24, 0x9000), [(0x1FB, 0x20), (0x1FD, 0x80)], false, false, 7)) = true := by decide

/-- V60.4, with the NMI vector of this file's cartridge. -/
theorem test_nmi_before_irq :
    (entryView (step { machine 0x8000#16 [0xEA] with p := 0x20, nmiPending := true, irqPending := true }) ==
      some ((0xFA, 0x24, 0xC000), [(0x1FB, 0x20), (0x1FD, 0x80)], false, true, 7)) = true := by decide

/-- V60.5: the report, and the state the machine is left in. -/
theorem test_halt :
    step (machine 0x8000#16 [0x02]) =
      .fault (.unknownOpcode 0x8000 0x02
        { machine 0x8000#16 [0x02] with
          halted := .halted 0x8000 0x02, bus := [⟨.cpu, .read, 0x8000, 0x02⟩] }) := by rfl

/-- R361, R386: the halted machine steps no more and is not reset. -/
theorem test_halted_stays :
    (let s := { machine 0x8000#16 [0xEA] with halted := .halted 0x8000 0x02 }
     (step s, hostMove .reset s, hostMove .assertNmi s)) =
      (.fault (.machineHalted 0x8000 0x02), .fault (.machineHalted 0x8000 0x02),
       .next { machine 0x8000#16 [0xEA] with halted := .halted 0x8000 0x02 }) := by rfl

/-! The order of the bus transactions: 95_test_vectors 2.13. -/

/-- The transactions of one step, oldest first. -/
def busOf (s : State) : List BusEvent :=
  match step s with
  | .next t => t.bus.reverse
  | .fault _ => []
  | .refused _ => []

/-- V20.1: one read and one write of the operand. -/
theorem test_bus_asl :
    busOf { machine 0x8000#16 [0x06, 0x10] with ram := [(0x10, 0x41)] } =
      [⟨.cpu, .read, 0x8000, 0x06⟩, ⟨.cpu, .read, 0x8001, 0x10⟩, ⟨.cpu, .read, 0x0010, 0x41⟩,
       ⟨.cpu, .write, 0x0010, 0x82⟩] := by decide

/-- V20.3: no read of the target. -/
theorem test_bus_sta :
    busOf { machine 0x8000#16 [0x9D, 0xFF, 0x02] with a := 0x5A, x := 0x01 } =
      [⟨.cpu, .read, 0x8000, 0x9D⟩, ⟨.cpu, .read, 0x8001, 0xFF⟩, ⟨.cpu, .read, 0x8002, 0x02⟩,
       ⟨.cpu, .write, 0x0300, 0x5A⟩] := by decide

/-- V20.6: the padding byte is not read. -/
theorem test_bus_brk :
    busOf (machine 0x8000#16 [0x00]) =
      [⟨.cpu, .read, 0x8000, 0x00⟩, ⟨.cpu, .write, 0x01FD, 0x80⟩, ⟨.cpu, .write, 0x01FC, 0x02⟩,
       ⟨.cpu, .write, 0x01FB, 0x3C⟩, ⟨.cpu, .read, 0xFFFE, 0x00⟩, ⟨.cpu, .read, 0xFFFF, 0x90⟩] := by decide

/-- V20.8: the pointer wraps in page 0. -/
theorem test_bus_indirectY :
    busOf { machine 0x8000#16 [0xB1, 0xFF] with y := 0x02, ram := [(0x00, 0x03)] } =
      [⟨.cpu, .read, 0x8000, 0xB1⟩, ⟨.cpu, .read, 0x8001, 0xFF⟩, ⟨.cpu, .read, 0x00FF, 0x00⟩,
       ⟨.cpu, .read, 0x0000, 0x03⟩, ⟨.cpu, .read, 0x0302, 0x00⟩] := by decide

/-- V20.12: the write to 0x4014, then 256 reads of the page, 0x0200 first and 0x02FF last. -/
theorem test_bus_dma :
    (let b := busOf { machine 0x8000#16 [0x8D, 0x14, 0x40] with a := 0x02, ram := [(0x200, 0x11), (0x2FF, 0x22)] }
     (b.length, b[3]?, b[4]?, b[259]?)) =
      (260, some ⟨.cpu, .write, 0x4014, 0x02⟩, some ⟨.dma, .read, 0x0200, 0x11⟩,
       some ⟨.dma, .read, 0x02FF, 0x22⟩) := by decide

/-- V20.13: the byte a PPU read returns is a draw. -/
theorem test_bus_ppu_read :
    busRead .cpu 0x2002#16 State.reset =
      (Config.portByte 0, { State.reset with
        draws := 1, bus := ⟨.cpu, .read, 0x2002, Config.portByte 0⟩ :: State.reset.bus }) := by rfl

/-! Mappers, reset and the cartridge file: 95_test_vectors 2.14 and 2.15. -/

/-- Banks banks of a mapper: bank b holds B0 + b at its first byte and E0 + b at its last. -/
def bankedCartridge (k : MapperKind) (banks chrBanks : Nat) : Cartridge :=
  { mapper := k, prgBanks := banks, chrBanks := chrBanks, headerMirroring := .horizontal
    prgRom := (List.range banks).flatMap (fun b =>
      [(b * 0x4000, 0xB0 + BitVec.ofNat 8 b), (b * 0x4000 + 0x3FFF, 0xE0 + BitVec.ofNat 8 b)])
    chrRom := if chrBanks = 0 then [] else [(0x100, 0x5A), (0x2010, 0x21), (0x3010, 0x31), (0x4123, 0x41), (0x5010, 0x51)] }

/-- The machine with such a cartridge, mapper registers as at power-on. -/
def banked (k : MapperKind) (banks : Nat) (chrBanks : Nat := 0) : State :=
  { State.reset with cart := bankedCartridge k banks chrBanks }

/-- Bus writes at one address, first byte first. -/
def writes (a : Word) (bytes : List Byte) (s : State) : State := bytes.foldl (fun t v => busWrite a v t) s

/-- The bytes at some addresses. -/
def reads (addrs : List Word) (s : State) : List Byte := addrs.map (fun a => readValue a s)

/-- V20.20 to V20.23. -/
theorem test_nrom :
    reads [0x8000, 0xC000, 0xFFFF] (banked .nrom 1) = [0xB0, 0xB0, 0xE0] ∧
    reads [0x8000, 0xC000, 0xFFFF] (banked .nrom 2) = [0xB0, 0xB1, 0xE1] ∧
    reads [0x8000, 0x7FFF, 0x6000] (writes 0x6000 [0x55] (writes 0x8000 [0x55] (banked .nrom 1))) =
      [0xB0, 0x00, 0x55] := by decide

/-- V20.24 to V20.26. -/
theorem test_unrom :
    reads [0x8000, 0xBFFF, 0xC000] (banked .unrom 4) = [0xB0, 0xE0, 0xB3] ∧
    reads [0x8000, 0xC000] (writes 0x8000 [0xFA] (banked .unrom 4)) = [0xB2, 0xB3] ∧
    reads [0x8000] (writes 0x8000 [0xFA, 0x05] (banked .unrom 4)) = [0xB1] := by decide

/-- V20.27 to V20.31, then V20.9. -/
theorem test_sxrom :
    (let s0 := banked .sxrom 4
     let s1 := writes 0xE000 [0x00, 0x01, 0x00, 0x00, 0x00] s0
     let s2 := writes 0x8000 [0x00, 0x01, 0x00, 0x01, 0x00] s1
     let s3 := writes 0x8000 [0x00, 0x00, 0x00, 0x00, 0x00] s2
     let s4 := writes 0x8000 [0x01, 0x01] s3
     let s5 := writes 0xA000 [0x80] s4
     [reads [0x8000, 0xC000] s0, reads [0x8000, 0xC000] s1, reads [0x8000, 0xC000] s2, reads [0x8000, 0xC000] s3,
      [s4.sxrom.shiftAccumulator.setWidth 8, s4.sxrom.writeCount.setWidth 8], reads [0xC000] s5] =
       [[0xB0, 0xB3], [0xB2, 0xB3], [0xB0, 0xB2], [0xB2, 0xB3], [0x03, 0x02], [0xB3]] ∧
     (s2.sxrom.mirroring, s3.sxrom.mirroring, s5.sxrom.mirroring, s5.sxrom.writeCount) =
       (.vertical, .singleScreenLower, .singleScreenLower, 0)) := by decide

/-- The byte a CHR-port read returns. -/
def chrByte (a : Nat) (s : State) : Option Byte :=
  match chrLoad a s with
  | .ok b => some b
  | .error _ => none

/-- V20.32 to V20.36. -/
theorem test_chr :
    (let g : State := { banked .sxrom 2 4 with
        sxrom := { sxromPowerOn .horizontal with chrMode := .k4, chrBank0 := 3, chrBank1 := 5 } }
     let g8 : State := { g with sxrom := { g.sxrom with chrMode := .k8 } }
     [chrByte 0x0010 g, chrByte 0x1010 g, chrByte 0x0010 g8, chrByte 0x0123 (writes 0x8000 [0xFE] (banked .cnrom 2 4)),
      chrByte 0x0100 (chrWrite 0x0100 0x7A (banked .nrom 1)), chrByte 0x0100 (chrWrite 0x0100 0x7A (banked .nrom 1 1)),
      chrByte 0x2000 g] =
      [some 0x31, some 0x51, some 0x21, some 0x41, some 0x7A, some 0x5A, none]) := by decide

/-- V70.1. -/
theorem test_power_on :
    (match powerOn (cartridgeWith 0x8000#16 [0xEA]) with
     | .ok s => (s.a, s.x, s.y, s.sp, s.p, s.pc) == (0x00, 0x00, 0x00, 0xFD, 0x2C, 0x8000) && s.ram == []
     | .error _ => false) = true := by decide

/-- V70.3. -/
theorem test_cpu_reset :
    (let s := { machine 0x1234#16 [] with
        a := 0x11, x := 0x22, y := 0x33, sp := 0x10, p := 0xC3, ram := [(0x5, 0x99)], nmiPending := true, irqPending := true }
     let t := resetSequence s
     (t.a, t.x, t.y, t.sp, t.p, t.pc) = (0x11, 0x22, 0x33, 0xFD, 0xC7, 0x8000) ∧ t.ram = [(0x5, 0x99)] ∧
     (t.nmiPending, t.irqPending, t.stepCycles) = (false, false, s.stepCycles)) := by decide

/-- R152 to R154: mapper number, mirroring, and the corruption pattern at bytes 7 to 15. -/
theorem test_header :
    (let h := headerFields [0x4E, 0x45, 0x53, 0x1A, 2, 1, 0x21, 0x10, 0, 0, 0, 0, 0, 0, 0, 0]
     let d := headerFields ([0x4E, 0x45, 0x53, 0x1A, 2, 1, 0x10] ++ diskDude)
     (h.prgBanks, h.chrBanks, mapperNumber h, headerMirroringOf h, trainerSize h) = (2, 1, 0x12, .vertical, 0) ∧
     (d.flags7, mapperNumber d, headerMirroringOf d) = (0x00, 1, .horizontal)) := by decide

/-! The host's two questions of a word. -/

/-- A, X and PC after a step that completes. -/
def view (o : Host.Outcome State Fault Refusal) : Option (Byte × Byte × Word) :=
  match o with
  | .next t => some (t.a, t.x, t.pc)
  | .fault _ => none
  | .refused _ => none

/-- INX placed and run as the first instruction after reset; likewise on a halted machine. -/
theorem test_withFetchWord :
    ((view (step (State.reset.withFetchWord 8 0xE8))).map (·.2.1) == some 0x01) = true ∧
    ((view (step ({ State.reset with halted := .halted 0x0000 0x02, nmiPending := true }.withFetchWord 16 0x9CA9))).map
      (·.1) == some 0x9C) = true := by decide

/-! Witnesses: for each obligation with hypotheses, a state and operands that meet them together. -/

/-- Whether an instruction completes. -/
def completes (o : Host.Outcome State Fault Refusal) : Bool :=
  match o with
  | .next _ => true
  | .fault _ => false
  | .refused _ => false

theorem exists_of_completes {o : Host.Outcome State Fault Refusal} (h : completes o = true) : ∃ t, o = .next t := by
  cases o with
  | next t => exact ⟨t, rfl⟩
  | fault f => cases h
  | refused r => cases h

/-- A state away from reset that meets the invariant: code in ROM, bytes in RAM and PRG-RAM, S at the end of its page. -/
def sample : State :=
  { machine 0x8000#16 [0xA9, 0x9C] with
    a := 0x5A, x := 0x01, y := 0xFF, sp := 0x00, p := 0xE1, ram := [(0x00, 0x03), (0x1FF, 0x77)], prgRam := [(0x1FFF, 0x42)],
    sxrom := { sxromPowerOn .vertical with shiftAccumulator := 0x05, writeCount := 4 } }

theorem sample_cartridge_valid : sample.cart.Valid :=
  ⟨by decide, by decide, by decide, by decide, by decide⟩

theorem witness_Inv : sample.Inv :=
  ⟨by decide, by decide, by decide, by decide, by decide, by decide, by decide, by decide, by decide, by decide,
    sample_cartridge_valid⟩

theorem witness_DecodeInvertsEncode :
    (Instr.ldaAbs 0xFFFF#16).wellFormed = true ∧ (Instr.unknown 0xFF#8).wellFormed = true := by decide

theorem witness_EncodeInvertsDecode :
    decode [0xAD#8, 0xFF#8, 0xFF#8, 0x00#8] = .ok (.ldaAbs 0xFFFF#16, [0x00#8]) ∧
    decode [0x02#8] = .ok (.unknown 0x02#8, []) := ⟨rfl, rfl⟩

theorem witness_DecodeSeparatesDocumentedFromIllegal : 0x02#8 ∈ illegalOpcodes ∧ 0x00#8 ∉ illegalOpcodes := by decide

/-- Both ways no interrupt is to be taken; the instruction is LDA #$9C. -/
theorem witness_StepRunsFetchedInstruction :
    sample.halted = .running ∧ sample.nmiPending = false ∧ sample.irqPending = false ∧
    { sample with irqPending := true, p := 0x24 }.flag .i = true ∧
    (Instr.ldaImm 0x9C#8).wellFormed = true ∧
    (fetchBytes (encode (.ldaImm 0x9C#8)).length sample).1 = encode (.ldaImm 0x9C#8) := by decide

/-- Also where PC wraps: 0xFFFF, 0x0000, 0x0001. -/
theorem witness_FetchReadsBytesAtPc :
    (∀ k, k < 3 → isPort (0x8000#16 + BitVec.ofNat 16 k) = false) ∧
    (∀ k, k < 3 → isPort (0xFFFF#16 + BitVec.ofNat 16 k) = false) := by decide

theorem witness_InterruptEntrySteps :
    { sample with nmiPending := true }.nmiPending = true ∧
    ({ sample with irqPending := true }.irqPending = true ∧ { sample with irqPending := true }.flag .i = false) ∧
    ({ sample with irqPending := true, p := 0x24 }.irqPending = true ∧
      { sample with irqPending := true, p := 0x24 }.flag .i = true) := by decide

/-- A step of each kind completes: an NMI entry, an IRQ entry, an instruction with IRQ masked, one with nothing pending. A
running machine has each latch clear, and set. -/
theorem witness_LatchesSetByAssertionClearedByServiceOrReset :
    (∃ t, step { sample with nmiPending := true, irqPending := true } = .next t) ∧
    (∃ t, step { sample with irqPending := true } = .next t) ∧
    (∃ t, step { sample with irqPending := true, p := 0x24 } = .next t) ∧ (∃ t, step sample = .next t) ∧
    sample.halted = .running ∧ sample.nmiPending = false ∧ sample.irqPending = false ∧
    (let s := { sample with nmiPending := true, irqPending := true }
     s.halted = .running ∧ s.nmiPending = true ∧ s.irqPending = true) :=
  ⟨exists_of_completes (by decide), exists_of_completes (by decide), exists_of_completes (by decide),
    exists_of_completes (by decide), rfl, rfl, rfl, rfl, rfl, rfl⟩

theorem witness_IllegalOpcodeHalts :
    (let s := machine 0x8000#16 [0xFF]
     0xFF#8 ∈ illegalOpcodes ∧ s.halted = .running ∧ s.nmiPending = false ∧ s.irqPending = false ∧
       readValue s.pc s = 0xFF#8) := by decide

theorem witness_HaltedMachineNeverSteps :
    { sample with halted := .halted 0x8000 0x02 }.halted = .halted 0x8000 0x02 := rfl

theorem witness_RtiUndoesExceptionEntry : sample.Inv := witness_Inv

theorem witness_RtsUndoesJsr : sample.Inv := witness_Inv

theorem witness_PushesWriteTheStack : sample.Inv := witness_Inv

theorem witness_PushThenPullRestores : sample.Inv := witness_Inv

theorem witness_LoadsSetRegisterAndNZ :
    (Instr.ldaIndY 0xFF#8).mnemonic = .lda ∧ (Instr.ldxZpY 0xFF#8).mnemonic = .ldx ∧
    (Instr.ldyAbsX 0xFFFF#16).mnemonic = .ldy := by decide

/-- The effective addresses of STA at every boundary of `storeEffect`, with the invariant. -/
theorem witness_StoresWriteTheEffectiveAddress :
    sample.Inv ∧ (∀ i ∈ [Instr.staAbs 0x4014#16, .stxZpY 0xFF#8, .styZpX 0xFF#8],
      i.mnemonic = .sta ∨ i.mnemonic = .stx ∨ i.mnemonic = .sty) ∧
    [0x0000#16, 0x1FFF#16, 0x2000#16, 0x4014#16, 0x5FFF#16, 0x6000#16, 0x7FFF#16, 0x8000#16, 0xFFFF#16].all
      (fun a => decide ((resolve (Instr.staAbs a).mode sample).1 = .mem a false)) = true :=
  ⟨witness_Inv, by decide, by decide⟩

theorem witness_ReadModifyWriteOnMemory :
    sample.Inv ∧ ∀ i ∈ [Instr.aslZp 0x00#8, .lsrZpX 0xFF#8, .rolAbs 0x4014#16, .rorAbsX 0xFFFF#16, .incAbs 0x7FFF#16,
      .decAbs 0x8000#16], i.mnemonic ∈ modifyMnemonics ∧ i.mode ≠ .accumulator :=
  ⟨witness_Inv, by decide⟩

theorem witness_ShiftsOnAccumulator : Instr.rorAcc ∈ [Instr.aslAcc, .lsrAcc, .rolAcc, .rorAcc] := by decide

theorem witness_AdcAddsWithCarry : (Instr.adcIndX 0xFF#8).mnemonic = .adc := rfl

theorem witness_SbcSubtractsWithBorrow : (Instr.sbcAbsY 0xFFFF#16).mnemonic = .sbc := rfl

theorem witness_DecimalFlagInfluencesNothing :
    (Instr.adcImm 0x09#8).mnemonic ∉ [Mnemonic.php, .brk, .plp, .rti, .cld, .sed, .unknown] := by decide

theorem witness_LogicalOperationsOnA :
    (Instr.andImm 0x0F#8).mnemonic = .and ∧ (Instr.oraIndY 0x20#8).mnemonic = .ora ∧ (Instr.eorAbs 0#16).mnemonic = .eor := by
  decide

theorem witness_ComparesSetCZN :
    (Instr.cmpAbsX 0#16).mnemonic = .cmp ∧ (Instr.cpxImm 0x80#8).mnemonic = .cpx ∧ (Instr.cpyZp 0xFF#8).mnemonic = .cpy := by
  decide

theorem witness_BitTestsMemory : (Instr.bitZp 0x10#8).mnemonic = .bit ∧ (Instr.bitAbs 0x1FFF#16).mnemonic = .bit := by decide

theorem witness_RamIsMirroredFourTimes : (0x0000#16).toNat ≤ 0x1FFF ∧ (0x1FFF#16).toNat ≤ 0x1FFF := by decide

theorem witness_UnmappedReadsZeroDiscardsWrites :
    (0x4020 ≤ (0x4020#16).toNat ∧ (0x4020#16).toNat ≤ 0x5FFF) ∧ (0x4020 ≤ (0x5FFF#16).toNat ∧ (0x5FFF#16).toNat ≤ 0x5FFF) := by
  decide

theorem witness_PortAccessesAreEventsAndDraws :
    [0x2000#16, 0x3FFF#16, 0x4000#16, 0x4013#16, 0x4014#16, 0x4015#16, 0x4016#16, 0x401F#16].all
      (fun a => decide (0x2000 ≤ a.toNat ∧ a.toNat ≤ 0x401F)) = true ∧
    [0x2000#16, 0x3FFF#16, 0x4014#16].all (fun a => decide (a.toNat ≤ 0x3FFF ∨ a.toNat = 0x4014)) = true ∧
    [0x4000#16, 0x4013#16, 0x4015#16].all
      (fun a => decide (0x4000 ≤ a.toNat ∧ a.toNat ≤ 0x4013 ∨ a.toNat = 0x4015)) = true ∧
    [0x4016#16, 0x401F#16].all (fun a => decide (0x4016 ≤ a.toNat)) = true := by decide

/-- Pages whose bytes are not ports, and the first and last offset. -/
theorem witness_OamDmaReadsOnePage :
    ∀ k ∈ [0, 255], k < 256 ∧ isPort (mkWord 0x02#8 (BitVec.ofNat 8 k)) = false ∧
      isPort (mkWord 0xFF#8 (BitVec.ofNat 8 k)) = false := by decide

/-- With DMA (STA $4014) and without. -/
theorem witness_ExactBusTransactions :
    (∃ t, exec (.staAbs 0x4014#16) sample = .next t) ∧ (resolve (Instr.staAbs 0x4014#16).mode sample).1 = .mem 0x4014#16 false ∧
    (∃ t, exec .brk sample = .next t) :=
  ⟨⟨_, rfl⟩, rfl, ⟨_, rfl⟩⟩

theorem witness_NromAndCnromProgramSide :
    ([0x6000#16, 0x7FFF#16].all (fun a => decide (0x6000 ≤ a.toNat ∧ a.toNat < 0x8000)) = true) ∧
    ([0x8000#16, 0xFFFF#16].all (fun a => decide (0x8000 ≤ a.toNat)) = true) ∧
    (banked .nrom 1).cart.mapper = .nrom ∧ (banked .nrom 1).cart.prgBanks = 1 ∧
    (banked .cnrom 2).cart.mapper = .cnrom ∧ 2 ≤ (banked .cnrom 2).cart.prgBanks := by decide

theorem witness_UnromProgramSide :
    (banked .unrom 1).cart.mapper = .unrom ∧ 1 ≤ (banked .unrom 1).cart.prgBanks ∧
    ([0x6000#16, 0x7FFF#16].all (fun a => decide (0x6000 ≤ a.toNat ∧ a.toNat < 0x8000)) = true) ∧
    ([0x8000#16, 0xBFFF#16].all (fun a => decide (0x8000 ≤ a.toNat ∧ a.toNat < 0xC000)) = true) ∧
    ([0xC000#16, 0xFFFF#16].all (fun a => decide (0x8000 ≤ a.toNat ∧ 0xC000 ≤ a.toNat)) = true) := by decide

theorem witness_SxromProgramReads :
    (banked .sxrom 3).cart.mapper = .sxrom ∧ 1 ≤ (banked .sxrom 3).cart.prgBanks ∧ (banked .sxrom 3).sxrom.prgSize = .k16 ∧
    { (banked .sxrom 3).sxrom with prgSize := .k32 }.prgSize = .k32 ∧
    ([0x8000#16, 0xBFFF#16].all (fun a => decide (0x8000 ≤ a.toNat ∧ a.toNat < 0xC000)) = true) ∧
    ([0xC000#16, 0xFFFF#16].all (fun a => decide (0x8000 ≤ a.toNat ∧ 0xC000 ≤ a.toNat)) = true) := by decide

/-- Each of the four registers, at both ends of its address range. -/
theorem witness_SxromSerialLoadCommits :
    (sxromPowerOn .vertical).writeCount = 0#3 ∧ (sxromPowerOn .vertical).shiftAccumulator = 0#5 ∧
    (0x7F#8).getLsbD 7 = false ∧
    ([0x8000#16, 0x9FFF#16].all (fun a => decide (0x8000 ≤ a.toNat ∧ a.toNat ≤ 0x9FFF)) = true) ∧
    ([0xA000#16, 0xBFFF#16].all (fun a => decide (0xA000 ≤ a.toNat ∧ a.toNat ≤ 0xBFFF)) = true) ∧
    ([0xC000#16, 0xDFFF#16].all (fun a => decide (0xC000 ≤ a.toNat ∧ a.toNat ≤ 0xDFFF)) = true) ∧
    ([0xE000#16, 0xFFFF#16].all (fun a => decide (0xE000 ≤ a.toNat)) = true) := by decide

theorem witness_SxromResetBitFixesLastBank :
    (banked .sxrom 4).cart.mapper = .sxrom ∧ 1 ≤ (banked .sxrom 4).cart.prgBanks ∧ 0x8000 ≤ (0x8000#16).toNat ∧
    (0x80#8).getLsbD 7 = true ∧ 0xC000 ≤ (0xC000#16).toNat := by decide

theorem witness_ChrPortTranslation :
    0x2000 ≤ 0x2000 ∧ 0x1FFF < 0x2000 ∧ 0 < (banked .cnrom 2 4).cart.chrBanks ∧ (banked .nrom 1).cart.chrBanks = 0 := by decide

theorem witness_PowerOnState :
    { blankCartridge with prgBanks := 0 }.prgBanks = 0 ∧ 1 ≤ (bankedCartridge .sxrom 8 0).prgBanks := by decide

/-- Power-on of each mapper and bank count that the clauses tell apart. -/
theorem witness_ResetVectorInPrgRom :
    (∃ s, powerOn (bankedCartridge .nrom 1 0) = .ok s) ∧ (∃ s, powerOn (bankedCartridge .cnrom 2 1) = .ok s) ∧
    (∃ s, powerOn (bankedCartridge .sxrom 8 0) = .ok s) ∧ ∃ s, powerOn (bankedCartridge .unrom 4 0) = .ok s :=
  ⟨⟨_, rfl⟩, ⟨_, rfl⟩, ⟨_, rfl⟩, ⟨_, rfl⟩⟩

theorem witness_CpuResetSequence : sample.halted = .running := rfl

/-- A file for each clause: no magic, cut short, mapper 4, no PRG bank, and one whole bank. -/
theorem witness_CartridgeFileInterpretation :
    (let header (prg flags6 : Byte) : List Byte := [0x4E, 0x45, 0x53, 0x1A, prg, 0, flags6, 0, 0, 0, 0, 0, 0, 0, 0, 0]
     let whole := header 1 0x31 ++ List.replicate 0x4000 0xEA#8
     [0x4E#8, 0x45#8].take 4 ≠ [0x4E#8, 0x45#8, 0x53#8, 0x1A#8] ∧
     ((header 1 0).take 4 = [0x4E#8, 0x45#8, 0x53#8, 0x1A#8] ∧ (header 1 0).length < 16 + 1 * 0x4000) ∧
     ((header 0 0x40).length = 16 ∧ 3 < ((header 0 0x40).getD 6 0#8).toNat / 16) ∧
     ((header 0 0).length = 16 ∧ ((header 0 0).getD 4 0#8).toNat = 0) ∧
     (whole.length = 16 + 1 * 0x4000 ∧ (whole.getD 4 0#8).toNat = 1 ∧ (whole.getD 6 0#8).toNat / 16 = 3)) := by
  refine ⟨by decide, by decide, by decide, by decide, ?_, rfl, rfl⟩
  rw [List.length_append, List.length_replicate]
  rfl

theorem witness_EveryStepKeepsInvariant : sample.Inv ∧ ∃ t, step sample = .next t :=
  ⟨witness_Inv, exists_of_completes (by decide)⟩

/-- A run with every kind of host move, from a state with the invariant, and power-on with a valid cartridge. -/
theorem witness_EveryRunOfHostMovesKeepsInvariant :
    sample.Inv ∧ (∃ t, hostMove (.chrStore 0x1FFF 0x7A) sample = .next t) ∧
    (∃ t, runMoves [.assertNmi, .step, .chrStore 0x1FFF 0x7A, .assertIrq, .reset, .step, .chrLoad 0, .readMirroring] sample =
      .next t) ∧
    sample.cart.Valid ∧ ∃ s, powerOn sample.cart = .ok s :=
  ⟨witness_Inv, exists_of_completes (by decide), exists_of_completes (by decide), sample_cartridge_valid, _, rfl⟩

/-- A move of each kind that completes. -/
theorem witness_CartridgeNeverChanges :
    ∀ m ∈ [HostMove.step, .assertNmi, .assertIrq, .reset, .chrLoad 0x1FFF, .chrStore 0x0000 0x7A, .readMirroring],
      ∃ t, hostMove m sample = .next t := by
  intro m hm
  apply exists_of_completes
  revert m
  decide

theorem witness_RegistersChangeOnlyByTheirInstructions :
    (∃ t, exec (.incAbs 0#16) sample = .next t) ∧ writesA (.incAbs 0#16) = false ∧ writesX (.incAbs 0#16) = false ∧
    writesY (.incAbs 0#16) = false ∧ writesS (.incAbs 0#16) = false :=
  ⟨⟨_, rfl⟩, by decide, by decide, by decide, by decide⟩

theorem witness_FlagsOutsideTheTableAreKept :
    (∃ t, exec (.adcImm 0x7F#8) sample = .next t) ∧ Flag.d ∉ flagsWritten .adc := ⟨⟨_, rfl⟩, by decide⟩

theorem witness_CycleCounts : (∃ t, exec (.bne 0x80#8) sample = .next t) ∧ (Instr.bne 0x80#8).mnemonic ≠ .unknown :=
  ⟨⟨_, rfl⟩, by decide⟩

/-- A documented instruction; a step that stops at an illegal byte, and one that stops on a halted machine. -/
theorem witness_EveryDocumentedInstructionCompletes :
    (Instr.nop).mnemonic ≠ .unknown ∧ (∃ f, step (machine 0x8000#16 [0x02]) = .fault f) ∧
    ∃ f, step { sample with halted := .halted 0x8000 0x02 } = .fault f :=
  ⟨by decide, ⟨_, rfl⟩, ⟨_, rfl⟩⟩

end Sys2Proof.Tests
end

section
/-! SUPPORT. What an instruction may write (10_state R31, R32, R38, R42), as one relation between the state before and the
state after: `Within`. Each shared operation has its lemma, and `exec_within` says it once of every instruction. -/

namespace Sys2Proof.Machine

/-- The registers and flags that something may write. -/
structure Footprint where
  a : Bool
  x : Bool
  y : Bool
  sp : Bool
  flags : List Flag

/-- The footprint of a mnemonic in a mode, by the rules' lists (10_state R31, R32, R38, R42). -/
def footprint (mn : Mnemonic) (m : Mode) : Footprint where
  a := [Mnemonic.lda, .txa, .tya, .pla, .adc, .sbc, .and, .ora, .eor].contains mn ||
    ([Mnemonic.asl, .lsr, .rol, .ror].contains mn && m == .accumulator)
  x := [Mnemonic.ldx, .tax, .tsx, .inx, .dex].contains mn
  y := [Mnemonic.ldy, .tay, .iny, .dey].contains mn
  sp := [Mnemonic.txs, .pha, .php, .pla, .plp, .jsr, .rts, .brk, .rti].contains mn
  flags := flagsWritten mn

/-- The footprint of an instruction is what the model's tables list for it. -/
theorem footprint_eq (i : Instr) :
    footprint i.mnemonic i.mode = ⟨writesA i, writesX i, writesY i, writesS i, flagsWritten i.mnemonic⟩ := rfl

/-- `t` comes from `s` within a footprint: nothing outside it is written, the cartridge and CHR-RAM are kept, and the
invariant is. -/
structure Within (w : Footprint) (s t : State) : Prop where
  a : w.a = false → t.a = s.a
  x : w.x = false → t.x = s.x
  y : w.y = false → t.y = s.y
  sp : w.sp = false → t.sp = s.sp
  flags : ∀ f, f ∉ w.flags → t.flag f = s.flag f
  cart : t.cart = s.cart
  chrRam : t.chrRam = s.chrRam
  inv : s.Inv → t.Inv

/-- Only the Accumulator mode resolves to A (30_encoding R187). -/
theorem resolve_eq_acc {m : Mode} {s : State} (h : (resolve m s).1 = .acc) : m = .accumulator := by
  cases m <;> simp_all [resolve]

namespace Within

variable {w : Footprint} {s t u : State}

theorem trans (h : Within w s t) (k : Within w t u) : Within w s u where
  a hw := (k.a hw).trans (h.a hw)
  x hw := (k.x hw).trans (h.x hw)
  y hw := (k.y hw).trans (h.y hw)
  sp hw := (k.sp hw).trans (h.sp hw)
  flags f hf := (k.flags f hf).trans (h.flags f hf)
  cart := k.cart.trans h.cart
  chrRam := k.chrRam.trans h.chrRam
  inv hs := k.inv (h.inv hs)

/-- PC, the latches, the cycle count, the log and the draw counter are in no footprint. -/
theorem control {pc : Word} {nmi irq : Bool} {cycles draws : Nat} {bus : List BusEvent} :
    Within w s { s with
      pc := pc, nmiPending := nmi, irqPending := irq, stepCycles := cycles, bus := bus, draws := draws } where
  a _ := rfl
  x _ := rfl
  y _ := rfl
  sp _ := rfl
  flags _ _ := rfl
  cart := rfl
  chrRam := rfl
  inv hs := hs.congr rfl rfl rfl rfl rfl rfl

theorem refl : Within w s s := control

/-- Registers and flags of the footprint written, with a P that meets the invariant when the old state does. -/
theorem writes {a x y sp p : Byte} (ha : w.a = false → a = s.a) (hx : w.x = false → x = s.x)
    (hy : w.y = false → y = s.y) (hsp : w.sp = false → sp = s.sp)
    (hp : ∀ f, f ∉ w.flags → getFlag f p = getFlag f s.p)
    (hbits : s.Inv → getFlag .u p = true ∧ getFlag .b p = false) :
    Within w s { s with a := a, x := x, y := y, sp := sp, p := p } where
  a := ha
  x := hx
  y := hy
  sp := hsp
  flags := hp
  cart := rfl
  chrRam := rfl
  inv hs := { hs with bit5 := (hbits hs).1, break0 := (hbits hs).2 }

/-- The update of one instruction: every footprint but that of PLP and RTI leaves out B and bit 5. -/
theorem registers {a x y sp p : Byte} (hp : ∀ f, f ∉ w.flags → getFlag f p = getFlag f s.p)
    (ha : w.a = false → a = s.a := by simp [footprint]) (hx : w.x = false → x = s.x := by simp [footprint])
    (hy : w.y = false → y = s.y := by simp [footprint]) (hsp : w.sp = false → sp = s.sp := by simp [footprint])
    (hu : Flag.u ∉ w.flags := by simp [footprint, flagsWritten])
    (hb : Flag.b ∉ w.flags := by simp [footprint, flagsWritten]) :
    Within w s { s with a := a, x := x, y := y, sp := sp, p := p } :=
  writes ha hx hy hsp hp fun hs => ⟨(hp .u hu).trans hs.bit5, (hp .b hb).trans hs.break0⟩

/-- Flags of the footprint written at the end, computed from the P of the beginning. -/
theorem status {p : Byte} (h : Within w s t) (hp : ∀ f, f ∉ w.flags → getFlag f p = getFlag f s.p)
    (hu : Flag.u ∉ w.flags) (hb : Flag.b ∉ w.flags) : Within w s { t with p := p } :=
  { h with
    flags := hp
    inv := fun hs => { h.inv hs with bit5 := (hp .u hu).trans hs.bit5, break0 := (hp .b hb).trans hs.break0 } }

/-- P restored from a pulled byte, where the footprint has every flag (10_state R39). -/
theorem restored {v : Byte} (h : ∀ f, f ∈ w.flags) : Within w s { s with p := restoreP v } :=
  writes (fun _ => rfl) (fun _ => rfl) (fun _ => rfl) (fun _ => rfl) (fun f hf => absurd (h f) hf)
    fun _ => ⟨getFlag_restoreP .u v, getFlag_restoreP .b v⟩

theorem stackPointer {v : Byte} (h : w.sp = true) : Within w s { s with sp := v } :=
  writes (fun _ => rfl) (fun _ => rfl) (fun _ => rfl) (by simp [h]) (fun _ _ => rfl)
    fun hs => ⟨hs.bit5, hs.break0⟩

theorem accumulator {v : Byte} (h : w.a = true) : Within w s { s with a := v } :=
  writes (by simp [h]) (fun _ => rfl) (fun _ => rfl) (fun _ => rfl) (fun _ _ => rfl)
    fun hs => ⟨hs.bit5, hs.break0⟩

/-! The operations on the bus and the stack. -/

theorem busWrite (a : Word) (v : Byte) : Within w s (busWrite a v s) where
  a _ := busWrite_a a v s
  x _ := busWrite_x a v s
  y _ := busWrite_y a v s
  sp _ := busWrite_sp a v s
  flags f _ := congrArg (getFlag f) (busWrite_p a v s)
  cart := busWrite_cart a v s
  chrRam := busWrite_chrRam a v s
  inv hs := hs.busWrite a v

theorem push (v : Byte) (h : w.sp = true) : Within w s (push v s) := (busWrite _ v).trans (stackPointer h)

theorem pushWord (v : Word) (h : w.sp = true) : Within w s (pushWord v s) := (push _ h).trans (push _ h)

theorem pull (h : w.sp = true) : Within w s (pull s).2 := (stackPointer h).trans control

theorem pullWord (h : w.sp = true) : Within w s (pullWord s).2 := (pull h).trans (pull h)

theorem readWord (a : Word) : Within w s (readWord a s).2 := control.trans control

theorem disableInterrupts : Within (footprint .brk .implied) s (s.withFlag .i true) :=
  registers fun _ hf => getFlag_setFlag_other (List.ne_of_not_mem_cons hf) true s.p

theorem takeException (vector ret : Word) (brk : Bool) :
    Within (footprint .brk .implied) s (takeException vector ret brk s) :=
  (((pushWord ret rfl).trans (push _ rfl)).trans disableInterrupts).trans ((readWord vector).trans control)

theorem interruptEntry (vector : Word) : Within (footprint .brk .implied) s (interruptEntry vector s) :=
  (takeException vector s.pc false).trans control

theorem resetSequence : Within (footprint .brk .implied) s (resetSequence s) :=
  ((stackPointer rfl).trans disableInterrupts).trans ((readWord Config.resetVector).trans control)

theorem returnFromException (h : ∀ f, f ∈ w.flags) (hsp : w.sp = true) : Within w s (returnFromException s) :=
  ((pull hsp).trans (restored h)).trans ((pullWord hsp).trans control)

/-! Operands. -/

theorem load (o : Operand) : Within w s (load o s).2 := by
  rw [load_frame]
  exact control

theorem resolve (m : Mode) : Within w s (resolve m s).2 := by
  rw [resolve_frame]
  exact control

theorem afterLoad (m : Mode) : Within w s (afterLoad m s) := (resolve m).trans (load _)

theorem store {o : Operand} (v : Byte) (h : o = .acc → w.a = true) : Within w s (store o v s) := by
  cases o with
  | acc => exact accumulator (h rfl)
  | mem ea _ => exact busWrite ea v
  | none | imm _ | target _ _ => exact refl

/-! The shapes of the instruction meanings. -/

theorem readOp {f : Byte → State → State} {op : Byte} {m : Mode} (hf : ∀ v t, Within w t (f v t)) :
    Within w s (readOp f op m s) :=
  (afterLoad m).trans ((hf _ _).trans control)

theorem storeOp {g : State → Byte} {op : Byte} {m : Mode} (hm : m ≠ .accumulator) : Within w s (storeOp g op m s) :=
  (resolve m).trans ((store _ fun h => absurd (resolve_eq_acc h) hm).trans control)

theorem modifyOp {f : Byte → Bool → Byte} {g : Byte → Byte → Byte} {op : Byte} {m : Mode}
    (hg : ∀ v p f, f ∉ w.flags → getFlag f (g v p) = getFlag f p) (hm : m = .accumulator → w.a = true)
    (hu : Flag.u ∉ w.flags := by simp [footprint, flagsWritten])
    (hb : Flag.b ∉ w.flags := by simp [footprint, flagsWritten]) :
    Within w s (modifyOp f g op m s) := by
  have stored : Within w s (Machine.store (Machine.resolve m s).1 _ (Machine.afterLoad m s)) :=
    (afterLoad m).trans (store (f (operandByte m s) (s.flag .c)) fun h => hm (resolve_eq_acc h))
  exact (stored.status (hg _ s.p) hu hb).trans control

theorem impliedOp {f : State → State} {op : Byte} {m : Mode} (hf : ∀ t, Within w t (f t)) :
    Within w s (impliedOp f op m s) :=
  (resolve m).trans ((hf _).trans control)

theorem branchOp {f : Flag} {want : Bool} {op : Byte} {m : Mode} : Within w s (branchOp f want op m s) := by
  have jump (taken : Bool) (pc : Word) (t : State) : Within w t (if taken then { t with pc := pc } else t) := by
    cases taken
    · exact refl
    · exact control
  exact (resolve m).trans ((jump _ _ _).trans control)

end Within

/-! The flag computations write the flags of the table (10_state R38). -/

theorem getFlag_setFlag_kept {f g : Flag} (h : f ∉ [g]) (v : Bool) (p : Byte) :
    getFlag f (setFlag g v p) = getFlag f p :=
  getFlag_setFlag_other (by simpa using h) v p

theorem getFlag_setNZ_kept {f : Flag} (h : f ∉ [Flag.n, .z]) (v p : Byte) : getFlag f (setNZ v p) = getFlag f p := by
  simp_all [getFlag_setNZ]

theorem getFlag_addFlags_kept {f : Flag} (h : f ∉ [Flag.n, .v, .z, .c]) (r : AddResult) (p : Byte) :
    getFlag f (addFlags r p) = getFlag f p := by
  simp_all [getFlag_addFlags]

theorem getFlag_compareFlags_kept {f : Flag} (h : f ∉ [Flag.n, .z, .c]) (r m p : Byte) :
    getFlag f (compareFlags r m p) = getFlag f p := by
  simp_all [getFlag_compareFlags]

theorem getFlag_bitFlags_kept {f : Flag} (h : f ∉ [Flag.n, .v, .z]) (a m p : Byte) :
    getFlag f (bitFlags a m p) = getFlag f p := by
  simp_all [getFlag_bitFlags]

theorem getFlag_shiftFlags_kept {f : Flag} (h : f ∉ [Flag.n, .z, .c]) (r : ShiftResult) (p : Byte) :
    getFlag f (shiftFlags r p) = getFlag f p := by
  simp_all [getFlag_shiftFlags]

theorem mem_allFlags (f : Flag) : f ∈ [Flag.n, .v, .b, .u, .d, .i, .z, .c] := by
  cases f <;> decide

/-- Every operation stays within the footprint of its mnemonic and mode. Only the shifts and rotates have the Accumulator
mode. -/
theorem executeMnemonic_within {mn : Mnemonic} {op : Byte} {m : Mode} {s t : State}
    (hm : m = .accumulator → mn ∈ [Mnemonic.asl, .lsr, .rol, .ror]) (h : executeMnemonic mn op m s = .next t) :
    Within (footprint mn m) s t := by
  cases mn with
  | lda | ldx | ldy | and | ora | eor =>
    cases h
    exact .readOp fun v t => .registers fun f hf => getFlag_setNZ_kept hf _ _
  | adc | sbc =>
    cases h
    exact .readOp fun v t => .registers fun f hf => getFlag_addFlags_kept hf _ _
  | cmp | cpx | cpy =>
    cases h
    exact .readOp fun v t => .registers fun f hf => getFlag_compareFlags_kept hf _ _ _
  | bit =>
    cases h
    exact .readOp fun v t => .registers fun f hf => getFlag_bitFlags_kept hf _ _ _
  | sta | stx | sty =>
    cases h
    exact .storeOp fun hacc => absurd (hm hacc) (by decide)
  | asl | lsr | rol | ror =>
    cases h
    exact .modifyOp (fun v p f hf => getFlag_shiftFlags_kept hf _ _) (by rintro rfl; rfl)
  | inc | dec =>
    cases h
    exact .modifyOp (fun v p f hf => getFlag_setNZ_kept hf _ _) fun hacc => absurd (hm hacc) (by decide)
  | tax | tay | txa | tya | tsx | inx | iny | dex | dey =>
    cases h
    exact .impliedOp fun t => .registers fun f hf => getFlag_setNZ_kept hf _ _
  | txs =>
    cases h
    exact .impliedOp fun t => .stackPointer rfl
  | pha | php =>
    cases h
    exact .impliedOp fun t => .push _ rfl
  | pla =>
    cases h
    exact .impliedOp fun t => (Within.pull rfl).trans (.registers fun f hf => getFlag_setNZ_kept hf _ _)
  | plp =>
    cases h
    exact .impliedOp fun t => (Within.pull rfl).trans (.restored mem_allFlags)
  | bpl | bmi | bvc | bvs | bcc | bcs | bne | beq =>
    cases h
    exact .branchOp
  | jmp =>
    cases h
    exact (Within.resolve m).trans .control
  | jsr =>
    cases h
    exact (Within.resolve m).trans ((Within.pushWord _ rfl).trans .control)
  | rts =>
    cases h
    exact .impliedOp fun t => (Within.pullWord rfl).trans .control
  | brk =>
    cases h
    exact .impliedOp fun t => .takeException _ _ _
  | rti =>
    cases h
    exact .impliedOp fun t => .returnFromException mem_allFlags rfl
  | clc | sec | cli | sei | clv | cld | sed =>
    cases h
    exact .impliedOp fun t => .registers fun f hf => getFlag_setFlag_kept hf _ _
  | nop =>
    cases h
    exact .impliedOp fun t => .refl
  | unknown => cases h

theorem mnemonic_of_mode_accumulator {i : Instr} (h : i.mode = .accumulator) :
    i.mnemonic ∈ [Mnemonic.asl, .lsr, .rol, .ror] := by
  cases i <;> simp_all [Instr.mode, Instr.mnemonic]

/-- What an instruction can do: nothing outside its footprint. -/
theorem exec_within {i : Instr} {s t : State} (h : exec i s = .next t) : Within (footprint i.mnemonic i.mode) s t :=
  executeMnemonic_within mnemonic_of_mode_accumulator (exec_eq i s ▸ h)

end Sys2Proof.Machine
end

section
/-! SUPPORT. What one step and one host move can do, from `exec_within`: the invariant, the cartridge and CHR-RAM. -/

namespace Sys2Proof.Machine

/-- A step that completes is an NMI entry, an IRQ entry or an instruction, on a running machine (30_encoding R172). -/
theorem step_cases {s t : State} (h : step s = .next t) :
    s.halted = .running ∧
      (s.nmiPending = true ∧ t = nmiEntry s ∨
       s.nmiPending = false ∧ s.irqPending = true ∧ s.flag .i = false ∧ t = irqEntry s ∨
       s.nmiPending = false ∧ (s.irqPending && !s.flag .i) = false ∧
         exec (fetchInstr s).1 (fetchInstr s).2 = .next t) := by
  unfold step at h
  split at h
  · cases h
  · rename_i hrun
    refine ⟨hrun, ?_⟩
    split at h
    · rename_i hnmi
      cases h
      exact .inl ⟨hnmi, rfl⟩
    · rename_i hnmi
      split at h
      · rename_i hirq
        cases h
        obtain ⟨hpending, hmask⟩ : s.irqPending = true ∧ s.flag .i = false := by simpa using hirq
        exact .inr (.inl ⟨by simpa using hnmi, hpending, hmask, rfl⟩)
      · rename_i hirq
        exact .inr (.inr ⟨by simpa using hnmi, by simpa using hirq, h⟩)

theorem Within.fetchInstr {w : Footprint} {s : State} : Within w s (fetchInstr s).2 := by
  rw [fetchInstr_frame]
  exact .control

/-- A step stays within the footprint of its instruction, an interrupt entry within that of BRK. -/
theorem step_within {s t : State} (h : step s = .next t) : ∃ w, Within w s t := by
  obtain ⟨-, ⟨-, rfl⟩ | ⟨-, -, -, rfl⟩ | ⟨-, -, hexec⟩⟩ := step_cases h
  · exact ⟨_, (Within.interruptEntry _).trans .control⟩
  · exact ⟨_, (Within.interruptEntry _).trans .control⟩
  · exact ⟨_, Within.fetchInstr.trans (exec_within hexec)⟩

/-- Moves other than a CHR store stay within a footprint; a CHR store is one write of CHR-RAM (70 R400; 20_memory R85). -/
theorem hostMove_cases {m : HostMove} {s t : State} (h : hostMove m s = .next t) :
    (∃ a v, m = .chrStore a v ∧ t = chrWrite (chrIndex a s) v s) ∨ ∃ w, Within w s t := by
  cases m with
  | step => exact .inr (step_within h)
  | assertNmi =>
    cases h
    exact .inr ⟨footprint .nop .implied, by unfold assertNmi; split; exacts [.control, .refl]⟩
  | assertIrq =>
    cases h
    exact .inr ⟨footprint .nop .implied, by unfold assertIrq; split; exacts [.control, .refl]⟩
  | reset =>
    simp only [hostMove, cpuReset] at h
    split at h
    · cases h
      exact .inr ⟨_, .resetSequence⟩
    · cases h
  | chrLoad a =>
    simp only [hostMove] at h
    split at h
    · cases h
      exact .inr ⟨footprint .nop .implied, .refl⟩
    · cases h
  | chrStore a v =>
    simp only [hostMove, chrStore] at h
    split_ifs at h
    cases h
    exact .inl ⟨a, v, rfl, rfl⟩
  | readMirroring =>
    cases h
    exact .inr ⟨footprint .nop .implied, .refl⟩

theorem chrWrite_cart (i : Nat) (v : Byte) (s : State) : (chrWrite i v s).cart = s.cart := by
  unfold chrWrite
  split <;> rfl

theorem hostMove_keeps_inv {m : HostMove} {s t : State} (hs : s.Inv) (h : hostMove m s = .next t) : t.Inv := by
  obtain ⟨a, v, -, rfl⟩ | ⟨w, hw⟩ := hostMove_cases h
  · exact hs.chrWrite _ v
  · exact hw.inv hs

theorem runMoves_keeps_inv {moves : List HostMove} {s t : State} (hs : s.Inv) (h : runMoves moves s = .next t) :
    t.Inv := by
  induction moves generalizing s with
  | nil =>
    cases h
    exact hs
  | cons m rest ih =>
    simp only [runMoves] at h
    split at h
    · rename_i hm
      exact ih (hostMove_keeps_inv hs hm) h
    · cases h
    · cases h

/-- The CPU reset written out (70 R383): its two reads lie in PRG-ROM space and so take no draw. -/
theorem resetSequence_eq (s : State) :
    resetSequence s =
      { s with
        sp := 0xFD#8
        p := setFlag .i true s.p
        pc := mkWord (readValue 0xFFFD#16 s) (readValue 0xFFFC#16 s)
        nmiPending := false
        irqPending := false
        bus := ⟨.cpu, .read, 0xFFFD#16, readValue 0xFFFD#16 s⟩ ::
          ⟨.cpu, .read, 0xFFFC#16, readValue 0xFFFC#16 s⟩ :: s.bus } := by
  have lo : isPort 0xFFFC#16 = false := by decide
  have hi : isPort 0xFFFD#16 = false := by decide
  have next : Config.resetVector + 1#16 = 0xFFFD#16 := by decide
  simp only [resetSequence, readWord, next, busRead, lo, hi]
  rfl

theorem constructed_inv {c : Cartridge} (h : c.Valid) : (constructed c).Inv where
  bit5 := (by decide : getFlag .u 0x28#8 = true)
  break0 := (by decide : getFlag .b 0x28#8 = false)
  ramWf := rfl
  ramBelow := rfl
  prgRamWf := rfl
  prgRamBelow := rfl
  chrRamWf := rfl
  chrRamBelow := rfl
  serialCount := Nat.zero_le 4
  serialBits := Nat.one_pos
  cartridge := h

/-- Power-on is construction and then the CPU reset (70 R380). -/
theorem powerOn_of_banks {c : Cartridge} (h : c.prgBanks ≠ 0) : powerOn c = .ok (resetSequence (constructed c)) :=
  if_neg h

theorem powerOn_inv {c : Cartridge} {s : State} (hc : c.Valid) (h : powerOn c = .ok s) : s.Inv := by
  rw [powerOn_of_banks (Nat.one_le_iff_ne_zero.mp hc.banks)] at h
  cases h
  exact (constructed_inv hc).resetSequence

theorem blankCartridge_valid : blankCartridge.Valid := by
  constructor <;> decide

end Sys2Proof.Machine
end

section
/-! SUPPORT. The obligations on the state (10_state): the invariant, the cartridge, the registers and the flags. -/

open Sys2Proof
open Sys2Proof.Machine

/-- Settles O54: every step stays within a footprint, and whatever does keeps the invariant. -/
theorem everyStepKeepsInvariant : Obligations.EveryStepKeepsInvariant := by
  intro s t hs h
  obtain ⟨w, hw⟩ := step_within h
  exact hw.inv hs

/-- Settles O55: a move is a CHR store or stays within a footprint; runs by induction on the moves. -/
theorem everyRunOfHostMovesKeepsInvariant : Obligations.EveryRunOfHostMovesKeepsInvariant :=
  ⟨fun _ _ _ => hostMove_keeps_inv, fun _ _ _ => runMoves_keeps_inv, fun _ _ => powerOn_inv⟩

/-- Settles O56: whatever stays within a footprint keeps the cartridge and CHR-RAM; a CHR store keeps the cartridge. -/
theorem cartridgeNeverChanges : Obligations.CartridgeNeverChanges := by
  intro m s t h
  obtain ⟨a, v, rfl, rfl⟩ | ⟨w, hw⟩ := hostMove_cases h
  · exact ⟨chrWrite_cart _ v s, fun hm => absurd rfl (hm a v)⟩
  · exact ⟨hw.cart, fun _ => hw.chrRam⟩

/-- Settles O57, by the footprint of each instruction. -/
theorem registersChangeOnlyByTheirInstructions : Obligations.RegistersChangeOnlyByTheirInstructions := by
  intro i s t h
  have hw := exec_within h
  rw [footprint_eq] at hw
  exact ⟨hw.a, hw.x, hw.y, hw.sp⟩

/-- Settles O58, by the footprint of each instruction. -/
theorem flagsOutsideTheTableAreKept : Obligations.FlagsOutsideTheTableAreKept := by
  intro i s t h
  have hw := exec_within h
  rw [footprint_eq] at hw
  exact hw.flags

/-- Settles O53: `State.reset` is power-on with the blank cartridge, which is valid. -/
theorem resetStateMeetsInvariant : Obligations.ResetStateMeetsInvariant :=
  powerOn_inv blankCartridge_valid powerOn_blankCartridge

/-- Settles O49: the construction, then the reset, whose two vector reads lie in PRG-ROM and so take no draw. -/
theorem powerOnState : Obligations.PowerOnState := by
  intro c
  refine ⟨fun h => if_pos h, fun h => ?_⟩
  have on := (powerOn_of_banks (Nat.one_le_iff_ne_zero.mp h)).trans (congrArg _ (resetSequence_eq (constructed c)))
  have status : setFlag .i true (constructed c).p = 0x2C#8 := (by decide : setFlag .i true 0x28#8 = 0x2C#8)
  refine ⟨_, _, _, on, readValue_congr _ rfl rfl rfl rfl rfl rfl, readValue_congr _ rfl rfl rfl rfl rfl rfl, ?_⟩
  rw [status]
  rfl

end
section
/-! SUPPORT. The Decimal flag (10_state R36): operations that a change of P.D commutes with. -/

namespace Sys2Proof.Machine

/-- Changing P.D before the operation or after it gives the same state. -/
def DecimalBlind (f : State → State) : Prop := ∀ (s : State) (d : Bool), f (s.withFlag .d d) = (f s).withFlag .d d

/-! The flag computations commute with a write of D: they write other flags and read none but C. -/

theorem setFlag_comm {f g : Flag} (h : f ≠ g) (v w : Bool) (p : Byte) :
    setFlag f v (setFlag g w p) = setFlag g w (setFlag f v p) := by
  apply eq_of_getFlag
  intro k
  simp only [getFlag_setFlag]
  split_ifs with hf hg
  · exact absurd (hf.symm.trans hg) h
  all_goals rfl

theorem setNZ_setDecimal (v p : Byte) (d : Bool) : setNZ v (setFlag .d d p) = setFlag .d d (setNZ v p) := by
  simp [setNZ, setFlag_comm (g := .d)]

theorem addFlags_setDecimal (r : AddResult) (p : Byte) (d : Bool) :
    addFlags r (setFlag .d d p) = setFlag .d d (addFlags r p) := by
  simp [addFlags, setNZ_setDecimal, setFlag_comm (g := .d)]

theorem compareFlags_setDecimal (r m p : Byte) (d : Bool) :
    compareFlags r m (setFlag .d d p) = setFlag .d d (compareFlags r m p) := by
  simp [compareFlags, setFlag_comm (g := .d)]

theorem bitFlags_setDecimal (a m p : Byte) (d : Bool) :
    bitFlags a m (setFlag .d d p) = setFlag .d d (bitFlags a m p) := by
  simp [bitFlags, setFlag_comm (g := .d)]

theorem shiftFlags_setDecimal (r : ShiftResult) (p : Byte) (d : Bool) :
    shiftFlags r (setFlag .d d p) = setFlag .d d (shiftFlags r p) := by
  simp [shiftFlags, setNZ_setDecimal, setFlag_comm (g := .d)]

/-! The bus does not read P. -/

theorem readValue_withFlag (a : Word) (f : Flag) (v : Bool) (s : State) :
    readValue a (s.withFlag f v) = readValue a s :=
  readValue_congr a rfl rfl rfl rfl rfl rfl

theorem busRead_withFlag (m : Master) (a : Word) (f : Flag) (v : Bool) (s : State) :
    busRead m a (s.withFlag f v) = ((busRead m a s).1, (busRead m a s).2.withFlag f v) := by
  simp only [busRead, readValue_withFlag]
  rfl

theorem dmaReads_withFlag (page : Byte) (n : Nat) (f : Flag) (v : Bool) (s : State) :
    dmaReads page n (s.withFlag f v) = (dmaReads page n s).withFlag f v := by
  induction n with
  | zero => rfl
  | succ n ih => simp only [dmaReads, ih, busRead_withFlag]

theorem prgStore_withFlag (a : Word) (b : Byte) (f : Flag) (v : Bool) (s : State) :
    prgStore a b (s.withFlag f v) = (prgStore a b s).withFlag f v := by
  unfold prgStore
  split
  · rfl
  · simp only [withFlag_cart]
    split <;> rfl

theorem storeAt_withFlag (a : Word) (b : Byte) (f : Flag) (v : Bool) (s : State) :
    storeAt a b (s.withFlag f v) = (storeAt a b s).withFlag f v := by
  unfold storeAt
  split
  · rfl
  · split
    · exact dmaReads_withFlag b 256 f v s
    · rfl
  · rfl
  · rfl
  · rfl
  · exact prgStore_withFlag a b f v s

theorem busWrite_withFlag (a : Word) (b : Byte) (f : Flag) (v : Bool) (s : State) :
    busWrite a b (s.withFlag f v) = (busWrite a b s).withFlag f v :=
  storeAt_withFlag a b f v { s with bus := ⟨.cpu, .write, a, b⟩ :: s.bus }

/-! The stack and the operands do not read P. -/

theorem push_withFlag (b : Byte) (f : Flag) (v : Bool) (s : State) :
    push b (s.withFlag f v) = (push b s).withFlag f v := by
  simp only [push, withFlag_sp, busWrite_withFlag]
  rfl

theorem pushWord_withFlag (w : Word) (f : Flag) (v : Bool) (s : State) :
    pushWord w (s.withFlag f v) = (pushWord w s).withFlag f v := by
  simp only [pushWord, push_withFlag]

theorem pull_withFlag (f : Flag) (v : Bool) (s : State) :
    pull (s.withFlag f v) = ((pull s).1, (pull s).2.withFlag f v) :=
  busRead_withFlag .cpu (stackAddress (s.sp + 1#8)) f v { s with sp := s.sp + 1#8 }

theorem pullWord_withFlag (f : Flag) (v : Bool) (s : State) :
    pullWord (s.withFlag f v) = ((pullWord s).1, (pullWord s).2.withFlag f v) := by
  simp only [pullWord, pull_withFlag]

theorem resolve_withFlag (m : Mode) (f : Flag) (v : Bool) (s : State) :
    resolve m (s.withFlag f v) = ((resolve m s).1, (resolve m s).2.withFlag f v) := by
  cases m with
  | indirectX _ | indirectY _ => simp only [resolve, zpWord, busRead_withFlag, withFlag_x, withFlag_y]
  | indirect _ => simp only [resolve, pointerWord, busRead_withFlag]
  | implied | accumulator | immediate _ | zeroPage _ | zeroPageX _ | zeroPageY _ | absolute _ | absoluteX _ | absoluteY _
    | relative _ => rfl

theorem load_withFlag (o : Operand) (f : Flag) (v : Bool) (s : State) :
    load o (s.withFlag f v) = ((load o s).1, (load o s).2.withFlag f v) := by
  cases o with
  | mem ea _ => exact busRead_withFlag .cpu ea f v s
  | none | acc | imm _ | target _ _ => rfl

theorem store_withFlag (o : Operand) (b : Byte) (f : Flag) (v : Bool) (s : State) :
    store o b (s.withFlag f v) = (store o b s).withFlag f v := by
  cases o with
  | mem ea _ => exact busWrite_withFlag ea b f v s
  | none | acc | imm _ | target _ _ => rfl

/-! The shapes of the instruction meanings. -/

namespace DecimalBlind

variable {op : Byte} {m : Mode}

theorem readOp {f : Byte → State → State} (hf : ∀ v, DecimalBlind (f v)) : DecimalBlind (readOp f op m) := by
  intro s d
  simp only [Machine.readOp, resolve_withFlag, load_withFlag, hf _ _ d]
  rfl

theorem storeOp {g : State → Byte} (hg : ∀ s d, g (s.withFlag .d d) = g s) : DecimalBlind (storeOp g op m) := by
  intro s d
  simp only [Machine.storeOp, resolve_withFlag, hg, store_withFlag]
  rfl

theorem modifyOp {f : Byte → Bool → Byte} {g : Byte → Byte → Byte}
    (hg : ∀ v p d, g v (setFlag .d d p) = setFlag .d d (g v p)) : DecimalBlind (modifyOp f g op m) := by
  intro s d
  have carry : (s.withFlag .d d).flag .c = s.flag .c := getFlag_setFlag_other (by decide) d s.p
  simp only [Machine.modifyOp, resolve_withFlag, load_withFlag, store_withFlag, carry, withFlag_p, hg]
  rfl

theorem impliedOp {f : State → State} (hf : DecimalBlind f) : DecimalBlind (impliedOp f op m) := by
  intro s d
  simp only [Machine.impliedOp, resolve_withFlag, hf _ d]
  rfl

theorem branchOp {f : Flag} {want : Bool} (h : f ≠ .d) : DecimalBlind (branchOp f want op m) := by
  intro s d
  have cond : (s.withFlag .d d).flag f = s.flag f := getFlag_setFlag_other h d s.p
  simp only [Machine.branchOp, resolve_withFlag, cond]
  split <;> rfl

end DecimalBlind

/-- Every operation but those that push, restore or write P.D is blind to it. -/
theorem executeMnemonic_decimalBlind {mn : Mnemonic} (op : Byte) (m : Mode)
    (h : mn ∉ [Mnemonic.php, .brk, .plp, .rti, .cld, .sed, .unknown]) :
    ∃ f, (∀ s, executeMnemonic mn op m s = .next (f s)) ∧ DecimalBlind f := by
  cases mn with
  | lda | ldx | ldy | and | ora | eor =>
    exact ⟨_, fun _ => rfl, .readOp fun v s d => by simp [State.withFlag, setNZ_setDecimal]⟩
  | adc | sbc => exact ⟨_, fun _ => rfl, .readOp fun v s d => by simp [State.withFlag, addFlags_setDecimal]⟩
  | cmp | cpx | cpy =>
    exact ⟨_, fun _ => rfl, .readOp fun v s d => by simp [State.withFlag, compareFlags_setDecimal]⟩
  | bit => exact ⟨_, fun _ => rfl, .readOp fun v s d => by simp [State.withFlag, bitFlags_setDecimal]⟩
  | sta | stx | sty => exact ⟨_, fun _ => rfl, .storeOp fun _ _ => rfl⟩
  | asl | lsr | rol | ror => exact ⟨_, fun _ => rfl, .modifyOp fun v p d => by simp [shiftFlags_setDecimal]⟩
  | inc | dec => exact ⟨_, fun _ => rfl, .modifyOp fun v p d => setNZ_setDecimal _ p d⟩
  | tax | tay | txa | tya | tsx | inx | iny | dex | dey =>
    exact ⟨_, fun _ => rfl, .impliedOp fun s d => by simp [State.withFlag, setNZ_setDecimal]⟩
  | txs | nop => exact ⟨_, fun _ => rfl, .impliedOp fun _ _ => rfl⟩
  | pha => exact ⟨_, fun _ => rfl, .impliedOp fun s d => push_withFlag s.a .d d s⟩
  | pla =>
    exact ⟨_, fun _ => rfl, .impliedOp fun s d => by simp only [pull_withFlag, withFlag_p, setNZ_setDecimal]; rfl⟩
  | bpl | bmi | bvc | bvs | bcc | bcs | bne | beq => exact ⟨_, fun _ => rfl, .branchOp (by decide)⟩
  | jmp => exact ⟨_, fun _ => rfl, fun s d => by simp only [jmpOp, resolve_withFlag]; rfl⟩
  | jsr =>
    exact ⟨_, fun _ => rfl, fun s d => by simp only [jsrOp, resolve_withFlag, withFlag_pc, pushWord_withFlag]; rfl⟩
  | rts => exact ⟨_, fun _ => rfl, .impliedOp fun s d => by simp only [pullWord_withFlag]; rfl⟩
  | clc | sec | cli | sei | clv =>
    exact ⟨_, fun _ => rfl, .impliedOp fun s d => by simp [State.withFlag, setFlag_comm (g := .d)]⟩
  | php | brk | plp | rti | cld | sed | unknown => simp at h

end Sys2Proof.Machine
end

section
/-! SUPPORT. The obligation on the Decimal flag (10_state R36). -/

open Sys2Proof
open Sys2Proof.Machine

/-- Settles O28: every operation it speaks of commutes with a write of P.D. -/
theorem decimalFlagInfluencesNothing : Obligations.DecimalFlagInfluencesNothing := by
  intro i s d h
  obtain ⟨f, hf, blind⟩ := executeMnemonic_decimalBlind i.opcode i.mode h
  simp only [exec_eq, hf]
  exact ⟨f s, rfl, congrArg _ (blind s d)⟩

end

section
/-! SUPPORT. The bus decode by ranges (20_memory R72 to R79), and what an access in each range does. -/

namespace Sys2Proof.Machine

theorem route_ppu {a : Word} (h : 0x2000 ≤ a.toNat) (h' : a.toNat ≤ 0x3FFF ∨ a.toNat = 0x4014) : route a = .ppu := by
  rw [route_eq]
  grind

theorem route_apu {a : Word} (h : 0x4000 ≤ a.toNat ∧ a.toNat ≤ 0x4013 ∨ a.toNat = 0x4015) : route a = .apu := by
  rw [route_eq]
  grind

theorem route_input {a : Word} (h : 0x4016 ≤ a.toNat) (h' : a.toNat ≤ 0x401F) : route a = .input := by
  rw [route_eq]
  grind

theorem route_unmapped {a : Word} (h : 0x4020 ≤ a.toNat) (h' : a.toNat ≤ 0x5FFF) : route a = .unmapped := by
  rw [route_eq]
  grind

theorem route_cartridge {a : Word} (h : 0x6000 ≤ a.toNat) : route a = .cartridge := by
  rw [route_eq]
  grind

/-- The windows of the device ports (20_memory R76 to R79). -/
theorem isPort_of_range {a : Word} (h : 0x2000 ≤ a.toNat) (h' : a.toNat ≤ 0x401F) : isPort a = true := by
  by_cases ppu : a.toNat ≤ 0x3FFF ∨ a.toNat = 0x4014
  · simp [isPort, route_ppu h ppu]
  by_cases apu : a.toNat ≤ 0x4015
  · simp [isPort, route_apu (a := a) (by omega)]
  · simp [isPort, route_input (by omega) h']

/-- A read of a device port returns the next draw and uses it up (20_memory R81). -/
theorem busRead_of_port {a : Word} (h : isPort a = true) (m : Master) (s : State) :
    busRead m a s =
      (Config.portByte s.draws,
       { s with draws := s.draws + 1, bus := ⟨m, .read, a, Config.portByte s.draws⟩ :: s.bus }) := by
  have value : readValue a s = Config.portByte s.draws := by
    unfold isPort at h
    unfold readValue
    split <;> simp_all
  simp only [busRead, value, h, if_true]

/-- A write to a device port, but at 0x4014, is an event only (20_memory R77 to R79). -/
theorem busWrite_of_port {a : Word} (h : isPort a = true) (ha : a ≠ 0x4014#16) (v : Byte) (s : State) :
    busWrite a v s = { s with bus := ⟨.cpu, .write, a, v⟩ :: s.bus } := by
  unfold isPort at h
  unfold busWrite storeAt
  split <;> simp_all

/-- An address with mirror bits flipped lies in RAM, at the same offset (20_memory R75). -/
theorem ramOffset_mirror {a m : Word} (ha : a.toNat ≤ 0x1FFF) (hm : m.toNat < 0x2000) (hoff : m.toNat % 0x800 = 0) :
    route (a ^^^ m) = .ram ∧ ramOffset (a ^^^ m) = ramOffset a := by
  constructor
  · have : a.toNat ^^^ m.toNat < 2 ^ 13 := Nat.xor_lt_two_pow (by omega) hm
    exact route_of_le _ (by rw [BitVec.toNat_xor]; omega)
  · rw [ramOffset_eq, ramOffset_eq, BitVec.toNat_xor]
    calc (a.toNat ^^^ m.toNat) % 2 ^ 11
        = a.toNat % 2 ^ 11 ^^^ m.toNat % 2 ^ 11 := Nat.xor_mod_two_pow
      _ = a.toNat % 2 ^ 11 := by rw [show m.toNat % 2 ^ 11 = 0 from hoff, Nat.xor_zero]

/-- The k-th of n DMA reads of a page stands n - 1 - k places down the log; a byte of memory reads as before the
transfer (20_memory R82). -/
theorem dmaReads_getElem? (page : Byte) (n : Nat) (s : State) {k : Nat} (hk : k < n) :
    ∃ b, (dmaReads page n s).bus[n - 1 - k]? = some ⟨.dma, .read, mkWord page (BitVec.ofNat 8 k), b⟩ ∧
      (isPort (mkWord page (BitVec.ofNat 8 k)) = false → b = readValue (mkWord page (BitVec.ofNat 8 k)) s) := by
  induction n with
  | zero => omega
  | succ n ih =>
    rw [dmaReads, busRead_bus]
    by_cases last : k = n
    · subst last
      refine ⟨readValue (mkWord page (BitVec.ofNat 8 k)) (dmaReads page k s), by simp, fun memory => ?_⟩
      rw [dmaReads_frame]
      exact readValue_congr_memory _ memory rfl rfl rfl rfl rfl
    · obtain ⟨b, hb, value⟩ := ih (by omega)
      refine ⟨b, ?_, value⟩
      rw [show n + 1 - 1 - k = (n - 1 - k) + 1 by omega, List.getElem?_cons_succ, hb]

theorem storeAt_ppu {a : Word} (h : route a = .ppu) (v : Byte) (s : State) :
    storeAt a v s = if a = 0x4014#16 then dmaReads v 256 s else s := by
  rw [storeAt, h]

/-- A write to 0x4014 is its event and then the DMA reads of the page (20_memory R82). -/
theorem busWrite_oamDma (v : Byte) (s : State) :
    busWrite 0x4014#16 v s = dmaReads v 256 { s with bus := ⟨.cpu, .write, 0x4014#16, v⟩ :: s.bus } := by
  rw [busWrite, storeAt_ppu (by decide), if_pos rfl]

end Sys2Proof.Machine
end

section
/-! SUPPORT. The obligations on the bus decode (20_memory R72 to R82). -/

open Sys2Proof
open Sys2Proof.Machine

/-- Settles O38: flipping mirror bits keeps the offset in RAM. -/
theorem ramIsMirroredFourTimes : Obligations.RamIsMirroredFourTimes := by
  intro s a ha
  have ram : route a = .ram := route_of_le a ha
  refine ⟨?_, fun m hm => ?_, fun v => ?_⟩
  · rw [readValue_ram ram, ramOffset_eq]
  · obtain ⟨lt, aligned⟩ : m.toNat < 0x2000 ∧ m.toNat % 0x800 = 0 := by
      simp only [List.mem_cons, List.not_mem_nil, or_false] at hm
      rcases hm with rfl | rfl | rfl <;> decide
    obtain ⟨ram', offset⟩ := ramOffset_mirror ha lt aligned
    refine ⟨?_, fun v => ?_⟩
    · rw [readValue_ram ram', readValue_ram ram, offset]
    · rw [busWrite_of_ram ram', busWrite_of_ram ram, offset]
  · rw [busWrite_of_ram ram, ramOffset_eq]

/-- Settles O41: the transfer is 256 DMA reads after the event of the write. -/
theorem oamDmaReadsOnePage : Obligations.OamDmaReadsOnePage := by
  intro s v
  simp only [busWrite_oamDma]
  obtain ⟨new, hbus, hlength, -⟩ := dmaReads_bus v 256 { s with bus := ⟨.cpu, .write, 0x4014#16, v⟩ :: s.bus }
  refine ⟨dmaReads_frame _ _ _, ?_, ?_, fun k hk => ?_⟩
  · rw [hbus, List.length_append, hlength, List.length_cons]
    omega
  · rw [hbus, ← hlength, List.drop_left]
  · obtain ⟨b, hb, value⟩ := dmaReads_getElem? v 256 { s with bus := ⟨.cpu, .write, 0x4014#16, v⟩ :: s.bus } hk
    exact ⟨b, hb, fun memory => (value memory).trans (readValue_congr _ rfl rfl rfl rfl rfl rfl)⟩

/-- Settles O39. -/
theorem unmappedReadsZeroDiscardsWrites : Obligations.UnmappedReadsZeroDiscardsWrites := by
  intro s a m v h h'
  have unmapped : route a = .unmapped := route_unmapped h h'
  constructor
  · simp [busRead, readValue, isPort, unmapped]
  · simp [busWrite, storeAt, unmapped]

/-- Settles O40: the windows by range; what an access does depends only on its address being a port's. -/
theorem portAccessesAreEventsAndDraws : Obligations.PortAccessesAreEventsAndDraws := by
  intro s a m v h h'
  have port : isPort a = true := isPort_of_range h h'
  exact ⟨port, route_ppu h, route_apu, fun input => route_input input h', busRead_of_port port m s,
    fun ha => busWrite_of_port port ha v s⟩

end

section
/-! SUPPORT. How many bus transactions each operation makes (20_memory R97, R98), as one relation between the state before
and the state after: `Adds`. Each shared operation has its lemma, and `exec_adds` says it once of every instruction. -/

namespace Sys2Proof.Machine

/-- `t`'s log is `s`'s with n transactions added. -/
def Adds (n : Nat) (s t : State) : Prop := ∃ new, t.bus = new ++ s.bus ∧ new.length = n

/-- The transactions of one load of an operand, or of one store to it, but for the DMA reads a store may cause. -/
def Operand.accesses : Operand → Nat
  | .mem _ _ => 1
  | .none | .acc | .imm _ | .target _ _ => 0

/-- The DMA reads that a store to an operand causes (20_memory R82). -/
def Operand.dmaReads : Operand → Nat
  | .mem ea _ => if ea = 0x4014#16 then 256 else 0
  | .none | .acc | .imm _ | .target _ _ => 0

/-- The pointer bytes that resolving a mode reads (30_encoding R195, R196, R198). -/
def pointerReads : Mode → Nat
  | .indirectX _ | .indirectY _ | .indirect _ => 2
  | _ => 0

/-- The instructions that store to their operand (40 R223; 46 R280; 47). -/
def storingMnemonics : List Mnemonic := [.sta, .stx, .sty, .asl, .lsr, .rol, .ror, .inc, .dec]

/-- How often a mnemonic loads its operand or stores to it. -/
def operandUses : Mnemonic → Nat
  | .lda | .ldx | .ldy | .adc | .sbc | .and | .ora | .eor | .cmp | .cpx | .cpy | .bit | .sta | .stx | .sty => 1
  | .asl | .lsr | .rol | .ror | .inc | .dec => 2
  | _ => 0

/-- The stack and vector bytes of a mnemonic. -/
def stackUses : Mnemonic → Nat
  | .pha | .php | .pla | .plp => 1
  | .jsr | .rts => 2
  | .rti => 3
  | .brk => 5
  | _ => 0

/-- The count of the rules, by the parts of an instruction's operation. -/
theorem dataTransactions_eq (i : Instr) (s : State) :
    dataTransactions i =
      pointerReads i.mode + operandUses i.mnemonic * (resolve i.mode s).1.accesses + stackUses i.mnemonic := by
  cases i <;> rfl

namespace Adds

variable {n k : Nat} {s t u : State}

theorem of_bus_eq (h : t.bus = s.bus) : Adds 0 s t := ⟨[], h, rfl⟩

theorem one {e : BusEvent} (h : t.bus = e :: s.bus) : Adds 1 s t := ⟨[e], h, rfl⟩

theorem trans (h : Adds n s t) (h' : Adds k t u) : Adds (n + k) s u := by
  obtain ⟨new, hnew, hn⟩ := h
  obtain ⟨new', hnew', hk⟩ := h'
  exact ⟨new' ++ new, by rw [hnew', hnew, List.append_assoc], by rw [List.length_append, hn, hk, Nat.add_comm]⟩

/-- An update that leaves the log alone adds nothing. -/
theorem keep (h : Adds n s t) (h' : u.bus = t.bus) : Adds n s u := h.trans (of_bus_eq h')

/-! The operations on the bus and the stack. -/

theorem busRead (m : Master) (a : Word) : Adds 1 s (busRead m a s).2 := one (busRead_bus m a s)

theorem busWrite (a : Word) (v : Byte) : Adds (1 + if a = 0x4014#16 then 256 else 0) s (busWrite a v s) := by
  obtain ⟨new, hbus, hother, hdma⟩ := busWrite_bus a v s
  refine ⟨new ++ [⟨.cpu, .write, a, v⟩], by simp [hbus], ?_⟩
  split_ifs with ha
  · simp [(hdma ha).1]
  · simp [hother ha]

theorem push (v : Byte) : Adds 1 s (push v s) := one (by rw [push_eq])

theorem pushWord (w : Word) : Adds 2 s (pushWord w s) := (push _).trans (push _)

theorem pull : Adds 1 s (pull s).2 := one (busRead_bus _ _ _)

theorem pullWord : Adds 2 s (pullWord s).2 := pull.trans pull

theorem readWord (a : Word) : Adds 2 s (readWord a s).2 := (busRead _ _).trans (busRead _ _)

theorem takeException (vector ret : Word) (brk : Bool) : Adds 5 s (takeException vector ret brk s) :=
  (((pushWord ret).trans (push _)).keep (withFlag_bus .i true _)).trans (readWord vector)

theorem returnFromException : Adds 3 s (returnFromException s) := (pull.keep rfl).trans pullWord

/-! Operands. -/

theorem resolve (m : Mode) : Adds (pointerReads m) s (resolve m s).2 := by
  cases m with
  | indirectX _ | indirectY _ | indirect _ => exact (busRead _ _).trans (busRead _ _)
  | implied | accumulator | immediate _ | zeroPage _ | zeroPageX _ | zeroPageY _ | absolute _ | absoluteX _ | absoluteY _
    | relative _ => exact of_bus_eq rfl

theorem load (o : Operand) : Adds o.accesses s (load o s).2 := by
  cases o with
  | mem ea _ => exact busRead .cpu ea
  | none | acc | imm _ | target _ _ => exact of_bus_eq rfl

theorem store (o : Operand) (v : Byte) : Adds (o.accesses + o.dmaReads) s (store o v s) := by
  cases o with
  | mem ea _ => exact busWrite ea v
  | none | acc | imm _ | target _ _ => exact of_bus_eq rfl

/-! The shapes of the instruction meanings. -/

theorem readOp {f : Byte → State → State} {op : Byte} {m : Mode} (hf : ∀ v t, (f v t).bus = t.bus) :
    Adds (pointerReads m + (Machine.resolve m s).1.accesses) s (readOp f op m s) :=
  ((resolve m).trans (load _)).keep (hf _ _)

theorem storeOp {g : State → Byte} {op : Byte} {m : Mode} :
    Adds (pointerReads m + (Machine.resolve m s).1.accesses + (Machine.resolve m s).1.dmaReads) s (storeOp g op m s) := by
  rw [Nat.add_assoc]
  exact ((resolve m).trans (store _ _)).keep rfl

theorem modifyOp {f : Byte → Bool → Byte} {g : Byte → Byte → Byte} {op : Byte} {m : Mode} :
    Adds (pointerReads m + 2 * (Machine.resolve m s).1.accesses + (Machine.resolve m s).1.dmaReads) s
      (modifyOp f g op m s) := by
  rw [Nat.two_mul, ← Nat.add_assoc, Nat.add_assoc (pointerReads m + _)]
  exact (((resolve m).trans (load _)).trans (store _ _)).keep rfl

theorem impliedOp {f : State → State} {op : Byte} {m : Mode} (hf : ∀ t, Adds n t (f t)) :
    Adds (pointerReads m + n) s (impliedOp f op m s) :=
  ((resolve m).trans (hf _)).keep rfl

theorem branchOp {f : Flag} {want : Bool} {op : Byte} {m : Mode} : Adds (pointerReads m) s (branchOp f want op m s) := by
  refine (resolve m).keep ?_
  simp only [Machine.branchOp, retire_bus]
  split <;> rfl

end Adds

/-- The count for an operation: pointer bytes, uses of the operand, stack and vector bytes, and DMA reads if it stores. -/
def transactions (mn : Mnemonic) (m : Mode) (s : State) : Nat :=
  pointerReads m + operandUses mn * (resolve m s).1.accesses + stackUses mn +
    if mn ∈ storingMnemonics then (resolve m s).1.dmaReads else 0

/-- The count of an operation's parts, as the count of its mnemonic by the tables. -/
theorem Adds.counts {n : Nat} {mn : Mnemonic} {m : Mode} {s t : State} (h : Adds n s t)
    (hn : transactions mn m s = n := by simp [transactions, operandUses, stackUses, storingMnemonics]) :
    Adds (transactions mn m s) s t := hn ▸ h

/-- Every operation makes exactly the transactions of its mnemonic and mode. -/
theorem executeMnemonic_adds {mn : Mnemonic} {op : Byte} {m : Mode} {s t : State}
    (h : executeMnemonic mn op m s = .next t) : Adds (transactions mn m s) s t := by
  cases mn with
  | lda | ldx | ldy | adc | sbc | and | ora | eor | cmp | cpx | cpy | bit =>
    cases h
    exact .counts (.readOp fun _ _ => rfl)
  | sta | stx | sty =>
    cases h
    exact .counts .storeOp
  | asl | lsr | rol | ror | inc | dec =>
    cases h
    exact .counts .modifyOp
  | tax | tay | txa | tya | tsx | txs | inx | iny | dex | dey | clc | sec | cli | sei | clv | cld | sed | nop =>
    cases h
    exact .counts (.impliedOp fun _ => .of_bus_eq rfl)
  | pha | php =>
    cases h
    exact .counts (.impliedOp fun _ => .push _)
  | pla | plp =>
    cases h
    exact .counts (.impliedOp fun _ => Adds.pull.keep rfl)
  | bpl | bmi | bvc | bvs | bcc | bcs | bne | beq =>
    cases h
    exact .counts .branchOp
  | jmp =>
    cases h
    exact .counts ((Adds.resolve m).keep rfl)
  | jsr =>
    cases h
    exact .counts (((Adds.resolve m).trans (.pushWord _)).keep rfl)
  | rts =>
    cases h
    exact .counts (.impliedOp fun _ => Adds.pullWord.keep rfl)
  | brk =>
    cases h
    exact .counts (.impliedOp fun _ => .takeException _ _ _)
  | rti =>
    cases h
    exact .counts (.impliedOp fun _ => .returnFromException)
  | unknown => cases h

/-- What an instruction adds to the log: its own transactions, and the DMA reads if it stores to its operand. -/
theorem exec_adds {i : Instr} {s t : State} (h : exec i s = .next t) :
    Adds (dataTransactions i + if i.mnemonic ∈ storingMnemonics then (resolve i.mode s).1.dmaReads else 0) s t := by
  rw [dataTransactions_eq i s]
  exact executeMnemonic_adds (exec_eq i s ▸ h)

theorem Operand.dmaReads_of_ne {o : Operand} (h : ¬ ∃ c, o = .mem 0x4014#16 c) : o.dmaReads = 0 := by
  cases o with
  | mem ea c => exact if_neg fun hea => h ⟨c, congrArg (Operand.mem · c) hea⟩
  | none | acc | imm _ | target _ _ => rfl

end Sys2Proof.Machine
end

section
/-! SUPPORT. The obligation on the transactions of an instruction (20_memory R97, R98). -/

open Sys2Proof
open Sys2Proof.Machine

/-- Settles O42: the count of each instruction, where only a store at 0x4014 causes DMA reads. -/
theorem exactBusTransactions : Obligations.ExactBusTransactions := by
  intro i s t h
  obtain ⟨new, hbus, hlength⟩ := exec_adds h
  refine ⟨new, hbus, fun noDma => ?_, fun ⟨(stores : i.mnemonic ∈ storingMnemonics), c, operand⟩ => ?_⟩
  · rw [hlength]
    split_ifs with stores
    · rw [Operand.dmaReads_of_ne fun operand => noDma ⟨stores, operand⟩]
      rfl
    · rfl
  · rw [hlength, if_pos stores, operand]
    rfl

end

section
/-! SUPPORT. The program side of the mappers by arithmetic (20_memory R110 to R148): what a read of each window gives and
what a write to it does. -/

namespace Sys2Proof.Machine

/-- The offset of a CPU address in a 32 KiB window (20_memory R115, R128). -/
theorem windowOffset_eq (a : Word) : (a &&& 0x7FFF#16).toNat = a.toNat % 0x8000 := by
  rw [BitVec.toNat_and]
  exact Nat.and_two_pow_sub_one_eq_mod a.toNat 15

theorem prgWindow_iff (a : Word) : a < 0x8000#16 ↔ a.toNat < 0x8000 := by
  simp [BitVec.lt_def]

theorem slotWindow_iff (a : Word) : a < 0xC000#16 ↔ a.toNat < 0xC000 := by
  simp [BitVec.lt_def]

theorem readValue_prgRam {a : Word} (h : 0x6000 ≤ a.toNat) (h' : a.toNat < 0x8000) (s : State) :
    readValue a s = s.prgRam.read (a.toNat % 0x2000) := by
  simp [readValue, route_cartridge h, prgLoad, prgWindow_iff, h', prgRamOffset_eq]

/-- A read at or above 0x8000 takes the mapper's index modulo the length of PRG-ROM (20_memory R112). -/
theorem readValue_prgRom {a : Word} (h : 0x8000 ≤ a.toNat) (s : State) :
    readValue a s = s.cart.prgRom.read (prgIndex a s % (s.cart.prgBanks * 0x4000)) := by
  simp [readValue, route_cartridge (show 0x6000 ≤ a.toNat by omega), prgLoad, prgWindow_iff, Nat.not_lt.mpr h, romAt,
    prgRomSize]

/-- A bank register keeps the low bits of what is written. -/
theorem setWidth_eq_ofNat_mod {w : Nat} (v : BitVec w) (n : Nat) : v.setWidth n = BitVec.ofNat n (v.toNat % 2 ^ n) := by
  apply BitVec.eq_of_toNat_eq
  simp

theorem prgStore_prgRam {a : Word} (h : a.toNat < 0x8000) (v : Byte) (s : State) :
    prgStore a v s = { s with prgRam := s.prgRam.write (a.toNat % 0x2000) v } := by
  simp [prgStore, prgWindow_iff, h, prgRamOffset_eq]

/-- An index in the last bank is within PRG-ROM (20_memory R130, R143). -/
theorem lastBank_mod {banks : Nat} (h : 1 ≤ banks) (a : Nat) :
    ((banks - 1) * 0x4000 + a % 0x4000) % (banks * 0x4000) = (banks - 1) * 0x4000 + a % 0x4000 :=
  Nat.mod_eq_of_lt (by omega)

/-- A write with bit 7 set (20_memory R121). -/
theorem sxromWrite_reset {v : Byte} (h : v.getLsbD 7 = true) (a : Word) (g : Sxrom) :
    sxromWrite a v g = { g with shiftAccumulator := 0#5, writeCount := 0#3, prgSize := .k16, slotSelect := true } :=
  if_pos h

/-- SxROM: a bus write at or above 0x8000 is a write of its registers (20_memory R121 to R127). -/
theorem busWrite_sxrom {s : State} (hm : s.cart.mapper = .sxrom) {a : Word} (h : 0x8000 ≤ a.toNat) (v : Byte) :
    busWrite a v s = { s with sxrom := sxromWrite a v s.sxrom, bus := ⟨.cpu, .write, a, v⟩ :: s.bus } := by
  simp [busWrite, storeAt, route_cartridge (show 0x6000 ≤ a.toNat by omega), prgStore, prgWindow_iff, Nat.not_lt.mpr h, hm]

theorem sxromPrgIndex_k32 {g : Sxrom} (h : g.prgSize = .k32) (banks : Nat) (a : Word) :
    sxromPrgIndex g banks a = g.prgBank.toNat / 2 * 0x8000 + a.toNat % 0x8000 := by
  rw [sxromPrgIndex, h, windowOffset_eq, BitVec.toNat_ushiftRight, Nat.shiftRight_eq_div_pow, Nat.pow_one]

theorem sxromPrgIndex_k16_low {g : Sxrom} (h : g.prgSize = .k16) (banks : Nat) {a : Word} (ha : a.toNat < 0xC000) :
    sxromPrgIndex g banks a = (if g.slotSelect then g.prgBank.toNat else 0) * 0x4000 + a.toNat % 0x4000 := by
  simp [sxromPrgIndex, h, slotWindow_iff, ha, slotOffset_eq]

theorem sxromPrgIndex_k16_high {g : Sxrom} (h : g.prgSize = .k16) (banks : Nat) {a : Word} (ha : 0xC000 ≤ a.toNat) :
    sxromPrgIndex g banks a = (if g.slotSelect then banks - 1 else g.prgBank.toNat) * 0x4000 + a.toNat % 0x4000 := by
  simp [sxromPrgIndex, h, slotWindow_iff, Nat.not_lt.mpr ha, slotOffset_eq]

end Sys2Proof.Machine
end

section
/-! SUPPORT. The obligations on the program side of the mappers (20_memory R110 to R148). -/

open Sys2Proof
open Sys2Proof.Machine

/-- Settles O43: NROM and CNROM share one index; a bank mask is a remainder within PRG-ROM. -/
theorem nromAndCnromProgramSide : Obligations.NromAndCnromProgramSide := by
  intro s a
  refine ⟨fun h h' => ⟨readValue_prgRam h h' s, fun v => prgStore_prgRam h' v s⟩, fun hm h => ?_, fun hm h v => ?_,
    fun hm h v => ?_⟩
  · have index : prgIndex a s = nromPrgIndex s.cart.prgBanks a := by
      rcases hm with hm | hm <;> rw [prgIndex, hm]
    rw [readValue_prgRom h, index]
    constructor
    · intro banks
      rw [banks, nromPrgIndex, if_pos rfl, slotOffset_eq, Nat.one_mul, Nat.mod_mod]
    · intro banks
      rw [nromPrgIndex, if_neg (by omega), windowOffset_eq, Nat.mod_eq_of_lt (a := a.toNat % _) (by omega)]
  · simp [prgStore, prgWindow_iff, Nat.not_lt.mpr h, hm]
  · have bits : v.setWidth 2 = BitVec.ofNat 2 (v.toNat % 4) := setWidth_eq_ofNat_mod v 2
    simp only [prgStore, prgWindow_iff, Nat.not_lt.mpr h, if_false, hm, bits]

/-- Settles O44: the bank latch chooses the window below 0xC000, the last bank the one from there on. -/
theorem unromProgramSide : Obligations.UnromProgramSide := by
  intro s a hm banks
  have index : prgIndex a s = unromPrgIndex s.unromPrgBank s.cart.prgBanks a := by rw [prgIndex, hm]
  refine ⟨fun h h' => ⟨readValue_prgRam h h' s, fun v => prgStore_prgRam h' v s⟩, fun h h' => ?_, fun h => ?_,
    fun h v => ?_⟩
  · rw [readValue_prgRom h, index, unromPrgIndex, if_pos ((slotWindow_iff a).mpr h'), slotOffset_eq]
  · rw [readValue_prgRom (by omega), index, unromPrgIndex, if_neg (by rw [slotWindow_iff]; omega), slotOffset_eq,
      lastBank_mod banks]
  · have bits : v.setWidth 3 = BitVec.ofNat 3 (v.toNat % 8) := setWidth_eq_ofNat_mod v 3
    simp only [prgStore, prgWindow_iff, Nat.not_lt.mpr h, if_false, hm, bits]

/-- Settles O45: the index of each PRG mode and slot, modulo the length of PRG-ROM. -/
theorem sxromProgramReads : Obligations.SxromProgramReads := by
  intro s a hm _ h
  have index : prgIndex a s = sxromPrgIndex s.sxrom s.cart.prgBanks a := by rw [prgIndex, hm]
  rw [readValue_prgRom h, index]
  refine ⟨fun k32 => ?_, fun k16 low => ?_, fun k16 high => ?_⟩
  · rw [sxromPrgIndex_k32 k32]
  · rw [sxromPrgIndex_k16_low k16 _ low]
  · rw [sxromPrgIndex_k16_high k16 _ high]

/-- Settles O47: the reset write leaves 16 KiB mode with the last bank in the slot at 0xC000. -/
theorem sxromResetBitFixesLastBank : Obligations.SxromResetBitFixesLastBank := by
  intro s a b v hm banks ha hv hb
  rw [busWrite_sxrom hm ha, sxromWrite_reset hv]
  refine ⟨rfl, ?_⟩
  rw [readValue_prgRom (by omega)]
  simp only [prgIndex, hm]
  rw [sxromPrgIndex_k16_high rfl _ hb, if_pos rfl, lastBank_mod banks]

/-- Settles O48: below 0x2000 the port reads and writes at the translated index. -/
theorem chrPortTranslation : Obligations.ChrPortTranslation := by
  intro s a v index
  have translated : chrIndex a s = index := by
    cases hm : s.cart.mapper with
    | nrom | unrom | cnrom => simp only [index, chrIndex, hm]
    | sxrom =>
      cases hc : s.sxrom.chrMode with
      | k8 => simp [index, chrIndex, hm, sxromChrIndex, hc, Nat.shiftRight_eq_div_pow]
      | k4 =>
        simp only [index, chrIndex, hm, sxromChrIndex, hc]
        split <;> rfl
  refine ⟨fun out => ?_, fun inside banks => ?_, fun inside banks => ?_, ?_⟩
  · simp [chrLoad, chrStore, Nat.not_lt.mpr out]
  · simp [chrLoad, chrStore, inside, translated, chrRead, chrWrite, romAt, chrRomSize, Nat.ne_of_gt banks]
  · simp [chrLoad, chrStore, inside, translated, chrRead, chrWrite, banks]
  · cases hm : s.cart.mapper <;> simp [mirroringOutput, hm]

end

section
/-! SUPPORT. The serial load of the SxROM registers (20_memory R122 to R127), with the bits loaded so far as a number. -/

namespace Sys2Proof.Machine

/-- The bit a serial write gives. -/
theorem serialBit_eq (v : Byte) : v.setWidth 5 &&& 1#5 = BitVec.ofNat 5 (v.toNat % 2) := by
  apply BitVec.eq_of_toNat_eq
  have : (v.setWidth 5 &&& 1#5).toNat = v.toNat % 2 ^ 5 % 2 := Nat.and_one_is_mod _
  rw [this, BitVec.toNat_ofNat]
  omega

/-- Bits below `count` and one bit at `count` make a number by addition. -/
theorem shiftIn_eq {acc count : Nat} (h : acc < 2 ^ count) (hc : count ≤ 4) (v : Byte) :
    BitVec.ofNat 5 acc ||| ((v.setWidth 5 &&& 1#5) <<< count) = BitVec.ofNat 5 (acc + v.toNat % 2 * 2 ^ count) := by
  have pow : 2 ^ count ≤ 2 ^ 4 := Nat.pow_le_pow_right (by decide) hc
  have bit : v.toNat % 2 * 2 ^ count ≤ 1 * 2 ^ count := Nat.mul_le_mul_right _ (by omega)
  apply BitVec.eq_of_toNat_eq
  rw [serialBit_eq, BitVec.toNat_or, BitVec.toNat_shiftLeft, Nat.or_comm]
  simp only [BitVec.toNat_ofNat, Nat.shiftLeft_eq]
  rw [Nat.mod_eq_of_lt (a := v.toNat % 2) (by omega), Nat.mod_eq_of_lt (a := acc) (by omega),
    Nat.mod_eq_of_lt (a := v.toNat % 2 * _) (by omega), Nat.mod_eq_of_lt (a := acc + _) (by omega),
    ← Nat.shiftLeft_eq, ← Nat.shiftLeft_add_eq_or_of_lt h, Nat.add_comm]

/-- A serial write before the fifth (20_memory R122): one more bit, one more write counted. -/
theorem sxromWrite_collect {g : Sxrom} {acc count : Nat} (hacc : g.shiftAccumulator = BitVec.ofNat 5 acc)
    (hcount : g.writeCount = BitVec.ofNat 3 count) (h : acc < 2 ^ count) (hc : count < 4) {v : Byte}
    (hv : v.getLsbD 7 = false) (a : Word) :
    sxromWrite a v g =
      { g with
        shiftAccumulator := BitVec.ofNat 5 (acc + v.toNat % 2 * 2 ^ count)
        writeCount := BitVec.ofNat 3 (count + 1) } := by
  have number : (BitVec.ofNat 3 count).toNat = count := by
    rw [BitVec.toNat_ofNat]
    omega
  have notLast : count + 1 ≠ 5 := by omega
  simp only [sxromWrite, hv, Bool.false_eq_true, if_false, hacc, hcount, number, notLast, shiftIn_eq h (by omega)]

/-- The fifth serial write commits (20_memory R122). -/
theorem sxromWrite_commit {g : Sxrom} {acc : Nat} (hacc : g.shiftAccumulator = BitVec.ofNat 5 acc)
    (hcount : g.writeCount = 4#3) (h : acc < 2 ^ 4) {v : Byte} (hv : v.getLsbD 7 = false) (a : Word) :
    sxromWrite a v g =
      { sxromCommit a (BitVec.ofNat 5 (acc + v.toNat % 2 * 2 ^ 4)) g with
        shiftAccumulator := 0#5, writeCount := 0#3 } := by
  have number : (4#3).toNat = 4 := rfl
  simp only [sxromWrite, hv, Bool.false_eq_true, if_false, hacc, hcount, number, if_true, shiftIn_eq h (le_refl 4)]

theorem getLsbD_eq_decide {w : Nat} (b : BitVec w) (k : Nat) : b.getLsbD k = decide (b.toNat / 2 ^ k % 2 = 1) := by
  rw [BitVec.getLsbD, Nat.testBit_eq_decide_div_mod_eq]

/-- The mirroring that Control's low two bits select, as a list (20_memory R124). -/
theorem controlMirroring_eq (r : BitVec 5) :
    controlMirroring r =
      [Mirroring.singleScreenLower, .singleScreenUpper, .vertical, .horizontal].getD (r.toNat % 4) .horizontal := by
  have low : r.toNat % 4 = r.toNat / 2 ^ 1 % 2 * 2 + r.toNat / 2 ^ 0 % 2 := by omega
  rw [low, controlMirroring, getLsbD_eq_decide, getLsbD_eq_decide]
  rcases Nat.mod_two_eq_zero_or_one (r.toNat / 2 ^ 1) with h1 | h1 <;>
    rcases Nat.mod_two_eq_zero_or_one (r.toNat / 2 ^ 0) with h0 | h0 <;>
      rw [h1, h0] <;> rfl

/-- Control by the number written to it (20_memory R124). -/
theorem sxromControl_eq (r : BitVec 5) (g : Sxrom) :
    sxromControl r g =
      { g with
        mirroring :=
          [Mirroring.singleScreenLower, .singleScreenUpper, .vertical, .horizontal].getD (r.toNat % 4) .horizontal
        slotSelect := decide (r.toNat / 4 % 2 = 1)
        prgSize := if r.toNat / 8 % 2 = 1 then .k16 else .k32
        chrMode := if r.toNat / 16 = 1 then .k4 else .k8 } := by
  have top : r.toNat / 16 % 2 = r.toNat / 16 := by omega
  simp only [sxromControl, controlMirroring_eq, getLsbD_eq_decide, decide_eq_true_eq, Nat.reducePow, top]

/-- A commit neither reads nor writes the serial load. -/
theorem sxromCommit_serial (a : Word) (r acc : BitVec 5) (count : BitVec 3) (g : Sxrom) :
    { sxromCommit a r { g with shiftAccumulator := acc, writeCount := count } with
      shiftAccumulator := g.shiftAccumulator, writeCount := g.writeCount } = sxromCommit a r g := by
  unfold sxromCommit
  split_ifs <;> rfl

end Sys2Proof.Machine
end

section
/-! SUPPORT. The obligation on the serial load (20_memory R122 to R127). -/

open Sys2Proof
open Sys2Proof.Machine

/-- Settles O46: four writes collect a bit each, the fifth commits the number they make. -/
theorem sxromSerialLoadCommits : Obligations.SxromSerialLoadCommits := by
  intro g a1 a2 a3 a4 a5 v1 v2 v3 v4 v5 hcount hacc _ h1 h2 h3 h4 h5 g4 g5 n
  let low := v1.toNat % 2 + v2.toNat % 2 * 2 + v3.toNat % 2 * 4 + v4.toNat % 2 * 8
  obtain ⟨hlow, hn, bound⟩ : low < 2 ^ 4 ∧ n = low + v5.toNat % 2 * 2 ^ 4 ∧ n < 32 := by omega
  have number : (BitVec.ofNat 5 n).toNat = n := Nat.mod_eq_of_lt bound
  have four : g4 = { g with shiftAccumulator := BitVec.ofNat 5 low, writeCount := 4#3 } := by
    simp only [g4]
    rw [sxromWrite_collect (acc := 0) (count := 0) hacc hcount (by decide) (by decide) h1,
      sxromWrite_collect rfl rfl (by omega) (by decide) h2, sxromWrite_collect rfl rfl (by omega) (by decide) h3,
      sxromWrite_collect rfl rfl (by omega) (by decide) h4]
    simp [low]
  have five : g5 = sxromCommit a5 (BitVec.ofNat 5 n) g := by
    rw [← sxromCommit_serial a5 _ (BitVec.ofNat 5 low) 4#3, hacc, hcount, ← four, hn]
    exact sxromWrite_commit (congrArg _ four) (congrArg _ four) hlow h5 a5
  rw [five, sxromCommit]
  refine ⟨by rw [four], fun hi => ?_, fun lo hi => ?_, fun lo hi => ?_, fun lo => ?_⟩
  · rw [if_pos (by bv_omega), sxromControl_eq, number]
  · rw [if_neg (by bv_omega), if_pos (by bv_omega)]
  · rw [if_neg (by bv_omega), if_neg (by bv_omega), if_pos (by bv_omega)]
  · rw [if_neg (by bv_omega), if_neg (by bv_omega), if_neg (by bv_omega)]
    have bank : (BitVec.ofNat 5 n).setWidth 4 = BitVec.ofNat 4 (n % 16)  := by
      rw [setWidth_eq_ofNat_mod, number]
      rfl
    rw [bank]

end

section
/-! SUPPORT. The cartridge file by the numbers of its bytes (20_memory R150 to R157). -/

namespace Sys2Proof.Machine

/-- Whether bytes 7 to 15 hold the corruption pattern (20_memory R154). -/
def hasDiskDude (file : List Byte) : Bool := (file.drop 7).take 9 == diskDude

theorem getD_take {n k : Nat} (h : k < n) (file : List Byte) : (file.take n).getD k 0#8 = file.getD k 0#8 := by
  rw [List.getD_eq_getElem?_getD, List.getElem?_take_of_lt h, ← List.getD_eq_getElem?_getD]

/-- The header's fields, read from the file (20_memory R151, R154). -/
theorem headerFields_take (file : List Byte) :
    headerFields (file.take 16) =
      { prgBanks := (file.getD 4 0#8).toNat, chrBanks := (file.getD 5 0#8).toNat, flags6 := file.getD 6 0#8
        flags7 := if hasDiskDude file then 0#8 else file.getD 7 0#8 } := by
  have pattern : ((file.take 16).drop 7).take 9 = (file.drop 7).take 9 := by
    rw [List.drop_take, List.take_take]
    rfl
  simp only [headerFields, pattern, getD_take, Nat.reduceLT, hasDiskDude, beq_iff_eq]

/-- The mapper number: a high digit from flags7 and a low one from flags6 (20_memory R152). -/
theorem mapperNumber_eq (h : HeaderFields) : mapperNumber h = h.flags7.toNat / 16 * 16 + h.flags6.toNat / 16 := by
  have := h.flags6.isLt
  have := h.flags7.isLt
  have high : (h.flags7 &&& 0xF0#8).toNat = (h.flags7.toNat / 16) <<< 4 := by
    have nibble : h.flags7 &&& 0xF0#8 = (h.flags7 >>> 4) <<< 4 := by
      apply BitVec.eq_of_getLsbD_eq
      intro i hi
      interval_cases i <;> simp
    rw [nibble, BitVec.toNat_shiftLeft, BitVec.toNat_ushiftRight, Nat.shiftRight_eq_div_pow, Nat.shiftLeft_eq]
    omega
  rw [mapperNumber, BitVec.toNat_or, high, BitVec.toNat_ushiftRight, Nat.shiftRight_eq_div_pow,
    ← Nat.shiftLeft_add_eq_or_of_lt (by omega), Nat.shiftLeft_eq]

theorem trainerSize_eq (h : HeaderFields) : trainerSize h = if h.flags6.toNat / 4 % 2 = 1 then 512 else 0 := by
  simp [trainerSize, getLsbD_eq_decide, -BitVec.getLsbD_eq_getElem]

theorem headerMirroringOf_eq (h : HeaderFields) :
    headerMirroringOf h = if h.flags6.toNat % 2 = 1 then .vertical else .horizontal := by
  simp [headerMirroringOf, getLsbD_eq_decide, -BitVec.getLsbD_eq_getElem]

theorem mapperOf_le {n : Nat} (h : n ≤ 3) :
    mapperOf n = some ([MapperKind.nrom, .sxrom, .unrom, .cnrom].getD n .nrom) := by
  interval_cases n <;> rfl

theorem mapperOf_gt {n : Nat} (h : 3 < n) : mapperOf n = none := by
  obtain ⟨k, rfl⟩ : ∃ k, n = k + 4 := ⟨n - 4, by omega⟩
  rfl

theorem below_ofBytes_take (n : Nat) (bytes : List Byte) : (Memory.ofBytes (bytes.take n)).below n = true :=
  Memory.below_ofBytesFrom 0 n _ (by simp)

/-- The array of a part of the file holds that part's bytes (20_memory R155). -/
theorem read_ofBytes_take_drop {n k : Nat} (h : k < n) (start : Nat) (file : List Byte) :
    (Memory.ofBytes ((file.drop start).take n)).read k = file.getD (start + k) 0#8 := by
  rw [Memory.read_ofBytes, getD_take h, List.getD_eq_getElem?_getD, List.getElem?_drop, ← List.getD_eq_getElem?_getD]

end Sys2Proof.Machine
end

section
/-! SUPPORT. The obligation on the cartridge file (20_memory R150 to R157). -/

open Sys2Proof
open Sys2Proof.Machine

/-- Settles O52: the clauses follow the branches of the load, on the numbers of the header's bytes. -/
theorem cartridgeFileInterpretation : Obligations.CartridgeFileInterpretation := by
  intro file b dude mapper start prg chr
  have number : mapperNumber (headerFields (file.take 16)) = mapper := by
    rw [headerFields_take, mapperNumber_eq]
    have digit : (if hasDiskDude file then 0#8 else file.getD 7 0#8).toNat / 16 * 16 =
        if dude then 0 else b 7 / 16 * 16 := by
      rw [show dude = hasDiskDude file from rfl]
      split <;> rfl
    rw [digit]
  have trainer : 16 + trainerSize (headerFields (file.take 16)) = start := by
    rw [headerFields_take, trainerSize_eq]
  have mirroring : headerMirroringOf (headerFields (file.take 16)) = if b 6 % 2 = 1 then .vertical else .horizontal := by
    rw [headerFields_take, headerMirroringOf_eq]
  have prgBanks : (headerFields (file.take 16)).prgBanks = b 4 := by rw [headerFields_take]
  have chrBanks : (headerFields (file.take 16)).chrBanks = b 5 := by rw [headerFields_take]
  refine ⟨fun other => if_pos other, fun magic => ?_⟩
  simp only [loadCartridge, number, trainer, mirroring, prgBanks, chrBanks]
  rw [if_neg (show ¬ file.take 4 ≠ headerMagic from not_not_intro magic)]
  refine ⟨fun short => if_pos short, fun long beyond => ?_, fun long known empty => ?_, fun long known banks => ?_⟩
  · rw [if_neg (Nat.not_lt.mpr long), mapperOf_gt beyond]
  · rw [if_neg (Nat.not_lt.mpr long), mapperOf_le known]
    exact if_pos empty
  · rw [if_neg (Nat.not_lt.mpr long), mapperOf_le known]
    refine ⟨_, if_neg banks, ?_, rfl, rfl, rfl, rfl, fun k hk => ?_, fun k hk => ?_⟩
    · exact ⟨Nat.one_le_iff_ne_zero.mpr banks, Memory.wf_ofBytes _, below_ofBytes_take _ _, Memory.wf_ofBytes _,
        below_ofBytes_take _ _⟩
    · exact read_ofBytes_take_drop hk start file
    · rw [List.drop_drop]
      exact read_ofBytes_take_drop hk (start + prg) file

end

section
/-! SUPPORT. The decoder and the encoder against each other (30_encoding R170 to R179): what a cell of the opcode map builds
from operand bytes, and what decoding a list of bytes does. -/

namespace Sys2Proof

open Machine

/-- `bytes` are the encoding of a well-formed instruction. -/
def IsEncoding (bytes : List Byte) (i : Instr) : Prop := encode i = bytes ∧ i.wellFormed = true

/-- A form at opcode byte `op` builds `i`, and whatever it builds is encoded as `op` and its operand bytes, low byte first
(30_encoding R170, R174). -/
inductive Builds (op : Byte) : Form → Instr → Prop
  | implied {i : Instr} (h : IsEncoding [op] i) : Builds op (.implied i) i
  | byteOperand {f : Byte → Instr} (h : ∀ b, IsEncoding [op, b] (f b)) (b : Byte) : Builds op (.byteOperand f) (f b)
  | wordOperand {f : Word → Instr} (h : ∀ a, IsEncoding [op, loByte a, hiByte a] (f a)) (a : Word) :
    Builds op (.wordOperand f) (f a)
  | illegal (h : op ∈ illegalOpcodes) : Builds op .illegal (.unknown op)

theorem wellFormed_unknown {op : Byte} : (Instr.unknown op).wellFormed = true ↔ op ∈ illegalOpcodes := by
  simp [Instr.wellFormed]

theorem isEncoding_unknown {op : Byte} (h : op ∈ illegalOpcodes) : IsEncoding [op] (.unknown op) :=
  ⟨rfl, wellFormed_unknown.mpr h⟩

theorem IsEncoding.opcode {op : Byte} {bytes : List Byte} {i : Instr} (h : IsEncoding (op :: bytes) i) : i.opcode = op :=
  (List.cons.inj h.1).1

theorem IsEncoding.operandBytes {op : Byte} {bytes : List Byte} {i : Instr} (h : IsEncoding (op :: bytes) i) :
    operandBytes i.mode = bytes :=
  (List.cons.inj h.1).2

/-- Whether a form is that of an illegal byte (30_encoding R179). -/
def Form.isIllegal : Form → Bool
  | .illegal => true
  | .implied _ | .byteOperand _ | .wordOperand _ => false

theorem form_of_mem_illegalOpcodes {op : Byte} (h : op ∈ illegalOpcodes) : (cellOf op).form = .illegal := by
  have marked : illegalOpcodes.all (fun op => (cellOf op).form.isIllegal) = true := by decide
  have := List.all_eq_true.mp marked op h
  cases hf : (cellOf op).form with
  | illegal => rfl
  | implied _ | byteOperand _ | wordOperand _ => simp [hf, Form.isIllegal] at this

/-- The opcode map at an instruction's opcode builds that instruction: R177's grid agrees with R178's list by mnemonic. -/
theorem builds_opcode {i : Instr} (h : i.wellFormed = true) : Builds i.opcode (cellOf i.opcode).form i := by
  cases i with
  | unknown op =>
    have illegal := wellFormed_unknown.mp h
    rw [Instr.opcode, form_of_mem_illegalOpcodes illegal]
    exact .illegal illegal
  | _ =>
    dsimp only [Instr.opcode]
    constructor
    intros
    exact ⟨rfl, rfl⟩

theorem exists_opcode_eq (op : Byte) : ∃ i : Instr, i.wellFormed = true ∧ i.opcode = op := by
  have built : ∀ op : Byte, (assemble op 0#8 0#8).wellFormed = true ∧ (assemble op 0#8 0#8).opcode = op := by decide
  exact ⟨_, built op⟩

/-- Every opcode byte builds something (30_encoding R175). -/
theorem exists_builds (op : Byte) : ∃ i, Builds op (cellOf op).form i := by
  obtain ⟨i, hwf, rfl⟩ := exists_opcode_eq op
  exact ⟨i, builds_opcode hwf⟩

theorem operandCount_le (c : Cell) : operandCount c ≤ 2 := by
  unfold operandCount
  split <;> decide

/-- Whatever the operand bytes, what is assembled is encoded as the opcode byte and the operand bytes its cell asks for. -/
theorem isEncoding_assemble (op b1 b2 : Byte) :
    IsEncoding (op :: [b1, b2].take (operandCount (cellOf op))) (assemble op b1 b2) := by
  obtain ⟨i, h⟩ := exists_builds op
  unfold assemble operandCount
  generalize (cellOf op).form = form at h
  cases h with
  | implied h => exact h
  | byteOperand h _ => exact h b1
  | wordOperand h _ => simpa using h (mkWord b2 b1)
  | illegal h => exact isEncoding_unknown h

/-- The opcode map gives an instruction back from the bytes that the encoder writes. -/
theorem assemble_operandBytes {i : Instr} (h : i.wellFormed = true) :
    assemble i.opcode ((operandBytes i.mode).getD 0 0#8) ((operandBytes i.mode).getD 1 0#8) = i := by
  have built := builds_opcode h
  generalize hop : i.opcode = op at built
  unfold assemble
  generalize (cellOf op).form = form at built
  cases built with
  | implied _ => rfl
  | byteOperand encoded b =>
    rw [(encoded b).operandBytes]
    rfl
  | wordOperand encoded a =>
    rw [(encoded a).operandBytes]
    exact congrArg _ (mkWord_hiByte_loByte a)
  | illegal _ => rfl

theorem isEncoding_assemble_of_length {op : Byte} {operands : List Byte}
    (h : operands.length = operandCount (cellOf op)) :
    IsEncoding (op :: operands) (assemble op (operands.getD 0 0#8) (operands.getD 1 0#8)) := by
  have encoded := isEncoding_assemble op (operands.getD 0 0#8) (operands.getD 1 0#8)
  have := operandCount_le (cellOf op)
  rw [← h] at encoded this
  match operands, encoded with
  | [], encoded | [_], encoded | [_, _], encoded => exact encoded
  | _ :: _ :: _ :: _, _ => simp at this

/-- The opcode map asks for as many operand bytes as the encoder writes. -/
theorem length_operandBytes {i : Instr} (h : i.wellFormed = true) :
    (operandBytes i.mode).length = operandCount (cellOf i.opcode) := by
  have encoded := isEncoding_assemble i.opcode ((operandBytes i.mode).getD 0 0#8) ((operandBytes i.mode).getD 1 0#8)
  rw [assemble_operandBytes h] at encoded
  rw [encoded.operandBytes, List.length_take]
  exact Nat.min_eq_left (operandCount_le (cellOf i.opcode))

/-- An opcode byte and the operand bytes its cell asks for decode to what they assemble to (30_encoding R170, R175). -/
theorem decode_append {op : Byte} {operands : List Byte} (h : operands.length = operandCount (cellOf op))
    (rest : List Byte) :
    decode (op :: (operands ++ rest)) = .ok (assemble op (operands.getD 0 0#8) (operands.getD 1 0#8), rest) := by
  have := operandCount_le (cellOf op)
  match operands, h with
  | [], h | [_], h | [_, _], h => simp [decode, ← h]
  | _ :: _ :: _ :: _, h => simp [← h] at this

/-- Bytes that decode begin with an opcode byte and the operand bytes its cell asks for. -/
theorem decode_eq_ok {bytes rest : List Byte} {i : Instr} (h : decode bytes = .ok (i, rest)) :
    ∃ op operands, bytes = op :: (operands ++ rest) ∧ operands.length = operandCount (cellOf op) ∧
      i = assemble op (operands.getD 0 0#8) (operands.getD 1 0#8) := by
  cases bytes with
  | nil => cases h
  | cons op tail =>
    simp only [decode] at h
    split at h
    · rename_i hcount
      cases h
      exact ⟨op, [], rfl, hcount.symm, rfl⟩
    · rename_i b tail hcount
      cases h
      exact ⟨op, [b], rfl, hcount.symm, rfl⟩
    · rename_i lo hi tail hcount
      cases h
      exact ⟨op, [lo, hi], rfl, hcount.symm, rfl⟩
    · cases h

theorem eq_unknown_of_mnemonic {i : Instr} (h : i.mnemonic = .unknown) : i = .unknown i.opcode := by
  cases i with
  | unknown op => rfl
  | _ => cases h

/-- An illegal byte assembles to `unknown`, whatever stands after it (30_encoding R179). -/
theorem assemble_illegal {op : Byte} (h : op ∈ illegalOpcodes) (b1 b2 : Byte) : assemble op b1 b2 = .unknown op := by
  rw [assemble, form_of_mem_illegalOpcodes h]

/-- A byte outside R179's list assembles to a documented instruction. -/
theorem mnemonic_assemble_ne_unknown {op : Byte} (h : op ∉ illegalOpcodes) (b1 b2 : Byte) :
    (assemble op b1 b2).mnemonic ≠ .unknown := by
  intro unknown
  have encoded := isEncoding_assemble op b1 b2
  have hwf := encoded.2
  rw [eq_unknown_of_mnemonic unknown, encoded.opcode] at hwf
  exact h (wellFormed_unknown.mp hwf)

end Sys2Proof
end

section
/-! SUPPORT. The obligations on encoding and decoding (30_encoding R170 to R179). -/

open Sys2Proof
open Sys2Proof.Machine

/-- Settles O1: the decoder takes the operand bytes that the encoder writes, and the opcode map gives the instruction back. -/
theorem decodeInvertsEncode : Obligations.DecodeInvertsEncode := by
  intro i rest h
  rw [encode, List.cons_append, decode_append (length_operandBytes h), assemble_operandBytes h]

/-- Settles O2: bytes that decode are an opcode byte and its operand bytes, and what they assemble to is encoded as them. -/
theorem encodeInvertsDecode : Obligations.EncodeInvertsDecode := by
  intro bytes i rest h
  obtain ⟨op, operands, rfl, hlength, rfl⟩ := decode_eq_ok h
  obtain ⟨encoded, hwf⟩ := isEncoding_assemble_of_length hlength
  exact ⟨by rw [encoded, List.cons_append], hwf⟩

/-- Settles O3: the list by counting, its bytes by their cells, and every other byte by its encoding. -/
theorem decodeSeparatesDocumentedFromIllegal : Obligations.DecodeSeparatesDocumentedFromIllegal := by
  refine ⟨rfl, by decide, fun op b1 b2 => ⟨fun illegal => ?_, fun documented => ?_⟩⟩
  · exact ⟨assemble_illegal illegal b1 b2, Laws.EncodedLength.illegal_operandCount op illegal⟩
  · have encoded := isEncoding_assemble op b1 b2
    have := operandCount_le (cellOf op)
    refine ⟨mnemonic_assemble_ne_unknown documented b1 b2, encoded.opcode, ?_⟩
    simp [encoded.1, this, Nat.add_comm]

/-- Settles O4, by running the decoder on each word. -/
theorem sampleWordsDecode : Obligations.SampleWordsDecode :=
  ⟨rfl, rfl, rfl, rfl, rfl, rfl, rfl, rfl⟩

end

section
/-! SUPPORT. What a step fetches and what it can end in (30_encoding R171, R172, R179; 60_exceptions R360). -/

namespace Sys2Proof.Machine

/-- With no interrupt to take, a running machine runs the instruction it fetches (30_encoding R172). -/
theorem step_eq_exec {s : State} (run : s.halted = .running) (nmi : s.nmiPending = false)
    (irq : s.irqPending = false ∨ s.flag .i = true) : step s = exec (fetchInstr s).1 (fetchInstr s).2 := by
  have masked : (s.irqPending && !s.flag .i) = false := by
    rcases irq with irq | irq <;> simp [-flag_eq, irq]
  simp only [step, run, nmi, masked, Bool.false_eq_true, if_false]

theorem fetchBytes_succ (n : Nat) (s : State) :
    fetchBytes (n + 1) s = ((fetchByte s).1 :: (fetchBytes n (fetchByte s).2).1, (fetchBytes n (fetchByte s).2).2) := rfl

/-- When the bytes at PC are those of a well-formed instruction, the fetch gives it and consumes exactly them. -/
theorem fetchInstr_of_encode {i : Instr} {s : State} (hwf : i.wellFormed = true)
    (hbytes : (fetchBytes (encode i).length s).1 = encode i) :
    fetchInstr s = (i, (fetchBytes (encode i).length s).2) := by
  rw [encode, List.length_cons, length_operandBytes hwf, fetchBytes_succ] at hbytes ⊢
  obtain ⟨opcode, operands⟩ := List.cons.inj hbytes
  rw [fetchInstr]
  simp only [opcode, operands, assemble_operandBytes hwf]

/-- An illegal byte at PC is fetched alone (30_encoding R179). -/
theorem fetchInstr_illegal {s : State} (h : readValue s.pc s ∈ illegalOpcodes) :
    fetchInstr s = (.unknown (readValue s.pc s), (fetchByte s).2) := by
  have count : operandCount (cellOf (fetchByte s).1) = 0 := Laws.EncodedLength.illegal_operandCount _ h
  simp only [fetchInstr, count, fetchBytes]
  exact congrArg (·, (fetchByte s).2) (assemble_illegal h _ _)

/-- The stop at an illegal byte at PC, with the state it leaves (60 R360). -/
theorem exec_fetchInstr_illegal {s : State} (h : readValue s.pc s ∈ illegalOpcodes) :
    exec (fetchInstr s).1 (fetchInstr s).2 =
      .fault (.unknownOpcode s.pc (readValue s.pc s)
        { s with
          halted := .halted s.pc (readValue s.pc s)
          bus := ⟨.cpu, .read, s.pc, readValue s.pc s⟩ :: s.bus
          draws := if isPort s.pc then s.draws + 1 else s.draws }) := by
  have pc : s.pc + 1#16 - 1#16 = s.pc := by bv_omega
  rw [fetchInstr_illegal h]
  simp only [exec, execUnknown, haltState, fetchByte, busRead, pc]

/-- A fetch outside the device ports takes no draw. -/
theorem fetchByte_of_memory {s : State} (h : isPort s.pc = false) :
    fetchByte s = (readValue s.pc s,
      { s with pc := s.pc + 1#16, bus := ⟨.cpu, .read, s.pc, readValue s.pc s⟩ :: s.bus }) := by
  simp [fetchByte, busRead, h]

/-- Every documented mnemonic has a meaning that completes. -/
theorem exec_completes {i : Instr} (h : i.mnemonic ≠ .unknown) (s : State) : ∃ t, exec i s = .next t := by
  rw [exec_eq]
  cases hmn : i.mnemonic with
  | unknown => exact absurd hmn h
  | _ => exact ⟨_, rfl⟩

/-- How a step ends: it completes, or the machine is halted, or the byte at PC is illegal (60 R360, R361). -/
theorem step_outcome (s : State) :
    (∃ t, step s = .next t) ∨
    (∃ pc op, s.halted = .halted pc op ∧ step s = .fault (.machineHalted pc op)) ∨
    (∃ final, readValue s.pc s ∈ illegalOpcodes ∧ final.halted = .halted s.pc (readValue s.pc s) ∧
      step s = .fault (.unknownOpcode s.pc (readValue s.pc s) final)) := by
  unfold step
  split
  · rename_i pc op halted
    exact .inr (.inl ⟨pc, op, halted, rfl⟩)
  · split_ifs
    · exact .inl ⟨_, rfl⟩
    · exact .inl ⟨_, rfl⟩
    · by_cases illegal : readValue s.pc s ∈ illegalOpcodes
      · exact .inr (.inr ⟨_, illegal, rfl, exec_fetchInstr_illegal illegal⟩)
      · exact .inl (exec_completes (mnemonic_assemble_ne_unknown illegal _ _) _)

end Sys2Proof.Machine
end

section
/-! SUPPORT. The obligations on the fetch and on how a step ends (30_encoding R171 to R173, R179; 60_exceptions R360). -/

open Sys2Proof
open Sys2Proof.Machine

/-- Settles O5: the fetch gives the instruction whose bytes stand at PC, and no interrupt comes before it. -/
theorem stepRunsFetchedInstruction : Obligations.StepRunsFetchedInstruction := by
  intro s i run nmi irq hwf hbytes
  refine ⟨?_, fetchBytes_frame _ s, length_fetchBytes_bus _ s⟩
  rw [step_eq_exec run nmi irq, fetchInstr_of_encode hwf hbytes]

/-- Settles O6, by induction on the number of fetches: a later fetch sees the memory of the first. -/
theorem fetchReadsBytesAtPc : Obligations.FetchReadsBytesAtPc := by
  intro n
  induction n with
  | zero =>
    intro s _
    simp [fetchBytes]
  | succ n ih =>
    intro s memory
    have first : isPort s.pc = false := by simpa using memory 0 n.succ_pos
    have next (k : Nat) : s.pc + 1#16 + BitVec.ofNat 16 k = s.pc + BitVec.ofNat 16 (k + 1) := by
      rw [BitVec.add_assoc, ← BitVec.ofNat_add, Nat.add_comm 1 k]
    have same (a : Word) : readValue a (fetchByte s).2 = readValue a s := by
      rw [fetchByte_of_memory first]
      exact readValue_congr a rfl rfl rfl rfl rfl rfl
    have pc : (fetchByte s).2.pc = s.pc + 1#16 := rfl
    obtain ⟨bytes, after⟩ := ih (fetchByte s).2 fun k hk => by
      rw [pc, next]
      exact memory (k + 1) (Nat.succ_lt_succ hk)
    simp only [pc, next, same] at bytes after
    rw [fetchBytes_succ, bytes, after, fetchByte_of_memory first]
    simp [List.range_succ_eq_map, Function.comp_def]

/-- Settles O9: the meaning of `unknown`, and the fetch of an illegal byte alone. -/
theorem illegalOpcodeHalts : Obligations.IllegalOpcodeHalts := by
  intro s op illegal
  refine ⟨rfl, fun run nmi irq hop => ?_⟩
  subst hop
  rw [step_eq_exec run nmi irq, exec_fetchInstr_illegal illegal]

/-- Settles O60: every documented mnemonic completes; a step that does not is at a halt or at an illegal byte. -/
theorem everyDocumentedInstructionCompletes : Obligations.EveryDocumentedInstructionCompletes := by
  refine ⟨fun i s h => exec_completes h s, fun s r refused => ?_, fun s f fault => ?_⟩
  · obtain ⟨t, h⟩ | ⟨pc, op, -, h⟩ | ⟨final, -, -, h⟩ := step_outcome s
    all_goals cases h.symm.trans refused
  · obtain ⟨t, h⟩ | ⟨pc, op, halted, h⟩ | ⟨final, illegal, halted, h⟩ := step_outcome s
    · cases h.symm.trans fault
    · cases h.symm.trans fault
      exact .inl ⟨pc, op, halted, rfl⟩
    · cases h.symm.trans fault
      exact .inr ⟨_, final, illegal, rfl, rfl, halted⟩

end

section
/-! SUPPORT. The cycle counts (30_encoding R200 to R203): what an instruction records, and the base count and penalty mark of
its cell by mnemonic and mode. -/

namespace Sys2Proof.Machine

/-- The mnemonics that carry R202's mark. -/
def branchMnemonics : List Mnemonic := [.bpl, .bmi, .bvc, .bvs, .bcc, .bcs, .bne, .beq]

/-- The mnemonics that carry R201's mark in an indexed mode that can cross a page. -/
def readCrossMnemonics : List Mnemonic := [.lda, .ldx, .ldy, .eor, .and, .ora, .adc, .sbc, .cmp]

/-- The indexed modes that can cross a page (30_encoding R199). -/
def mayCross : Mode → Bool
  | .absoluteX _ | .absoluteY _ | .indirectY _ => true
  | .implied | .accumulator | .immediate _ | .zeroPage _ | .zeroPageX _ | .zeroPageY _ | .absolute _ | .indirectX _
    | .relative _ | .indirect _ => false

/-- The penalty mark of a mnemonic in a mode (30_encoding R201, R202). -/
def penaltyMark (mn : Mnemonic) (m : Mode) : Penalty :=
  if mn ∈ branchMnemonics then .branch
  else if mn ∈ readCrossMnemonics ∧ mayCross m = true then .readCross
  else .fixed

theorem mayCross_iff (m : Mode) :
    mayCross m = true ↔ (∃ a, m = .absoluteX a) ∨ (∃ a, m = .absoluteY a) ∨ ∃ z, m = .indirectY z := by
  cases m <;> simp [mayCross]

theorem penaltyMark_eq_branch (mn : Mnemonic) (m : Mode) : penaltyMark mn m = .branch ↔ mn ∈ branchMnemonics := by
  unfold penaltyMark
  split_ifs <;> simp [*]

theorem not_mem_branchMnemonics {mn : Mnemonic} (h : mn ∈ readCrossMnemonics) : mn ∉ branchMnemonics := by
  revert mn
  decide

theorem penaltyMark_eq_readCross (mn : Mnemonic) (m : Mode) :
    penaltyMark mn m = .readCross ↔ mn ∈ readCrossMnemonics ∧ mayCross m = true := by
  unfold penaltyMark
  split_ifs with branch cross
  · simp only [false_iff]
    exact fun h => not_mem_branchMnemonics h.1 branch
  · simp [cross]
  · simp only [false_iff]
    exact cross

/-- The cell of a documented instruction holds the count and the mark of its mnemonic and mode. -/
theorem cell_opcode {i : Instr} (h : i.mnemonic ≠ .unknown) :
    (cellOf i.opcode).baseCycles = baseCount i.mnemonic i.mode ∧
      (cellOf i.opcode).penalty = penaltyMark i.mnemonic i.mode := by
  cases i with
  | unknown _ => exact absurd rfl h
  | _ =>
    dsimp only [Instr.opcode]
    exact ⟨rfl, rfl⟩

theorem cyclesOf_eq (op : Byte) (crossed taken : Bool) :
    cyclesOf op crossed taken =
      (cellOf op).baseCycles + (if (cellOf op).penalty = .readCross ∧ crossed then 1 else 0) +
      (if (cellOf op).penalty = .branch ∧ taken then 1 else 0) +
      (if (cellOf op).penalty = .branch ∧ taken ∧ crossed then 1 else 0) := by
  unfold cyclesOf
  cases (cellOf op).penalty with
  | fixed => simp
  | readCross => simp
  | branch => simp [Nat.add_assoc]

/-- Every instruction records the count of its opcode byte, its page cross and its branch (30_encoding R203). -/
theorem exec_stepCycles {i : Instr} {s t : State} (h : exec i s = .next t) :
    t.stepCycles = cyclesOf i.opcode (resolve i.mode s).1.crossed (branchTaken i s) := by
  rw [exec_eq] at h
  unfold branchTaken
  cases hmn : i.mnemonic with
  | bpl | bvc | bcc | bne =>
    rw [hmn] at h
    cases h
    exact congrArg (cyclesOf _ _) (beq_false _)
  | bmi | bvs | bcs | beq =>
    rw [hmn] at h
    cases h
    exact congrArg (cyclesOf _ _) (beq_true _)
  | unknown =>
    rw [hmn] at h
    cases h
  | _ =>
    rw [hmn] at h
    cases h
    rfl

end Sys2Proof.Machine
end

section
/-! SUPPORT. The obligation on the cycle counts (30_encoding R200 to R203). -/

open Sys2Proof
open Sys2Proof.Machine

/-- Settles O59: the count an instruction records, the parts of a count, and the marks by mnemonic and mode. -/
theorem cycleCounts : Obligations.CycleCounts := by
  refine ⟨fun i s t => exec_stepCycles, cyclesOf_eq, fun i documented => ?_⟩
  obtain ⟨count, mark⟩ := cell_opcode documented
  rw [mark, ← mayCross_iff]
  exact ⟨count, penaltyMark_eq_branch _ _, penaltyMark_eq_readCross _ _⟩

end

section
/-! SUPPORT. Addresses of operands by arithmetic (30_encoding R187 to R199). -/

namespace Sys2Proof.Machine

theorem zext16_eq (b : Byte) : zext16 b = BitVec.ofNat 16 b.toNat := by
  apply BitVec.eq_of_toNat_eq
  have := b.isLt
  rw [toNat_zext16, BitVec.toNat_ofNat]
  omega

theorem zext16_add (b c : Byte) : zext16 (b + c) = BitVec.ofNat 16 ((b.toNat + c.toNat) % 256) := by
  rw [zext16_eq, BitVec.toNat_add]

/-- Indexing an address (30_encoding R193, R194, R196). -/
theorem add_zext16 (a : Word) (b : Byte) : a + zext16 b = BitVec.ofNat 16 (a.toNat + b.toNat) := by
  apply BitVec.eq_of_toNat_eq
  rw [BitVec.toNat_add, toNat_zext16, BitVec.toNat_ofNat]

/-- The target of a branch (30_encoding R197). -/
theorem add_sext16 (a : Word) (b : Byte) : a + sext16 b = BitVec.ofInt 16 (a.toNat + b.toInt) := by
  rw [BitVec.ofInt_add, BitVec.ofInt_natCast, BitVec.ofNat_toNat, BitVec.setWidth_eq]
  rfl

theorem toNat_hiByte (w : Word) : (hiByte w).toNat = w.toNat / 256 := by
  have := w.isLt
  simp only [hiByte, BitVec.extractLsb'_toNat, Nat.shiftRight_eq_div_pow]
  omega

/-- Two addresses lie on different pages when their numbers over 256 differ (30_encoding R199). -/
theorem pageCross_eq (a r : Word) : pageCross a r = decide (a.toNat / 256 ≠ r.toNat / 256) := by
  simp only [pageCross, bne, beq_eq_decide, BitVec.toNat_eq, toNat_hiByte, ne_eq, decide_not]

end Sys2Proof.Machine
end

section
/-! SUPPORT. The obligations on operands (30_encoding R185 to R199). -/

open Sys2Proof
open Sys2Proof.Machine

/-- Settles O19, by the arithmetic of each address. -/
theorem directModesResolve : Obligations.DirectModesResolve := by
  intro s b a
  simp only [resolve, pageCross_eq, zext16_add, add_zext16, add_sext16, zext16_eq b, and_self]

/-- Settles O20: the pointer's two reads lie in page 0, which is RAM. -/
theorem pointerModesResolve : Obligations.PointerModesResolve := by
  intro s z word log
  have next (q : Byte) : (q + 1#8).toNat = (q.toNat + 1) % 256 := BitVec.toNat_add q 1#8
  simp only [resolve, zpWord_eq, next, pageCross_eq, add_zext16]
  exact ⟨rfl, rfl⟩

/-- Settles O21: each accessor by its definition. -/
theorem operandAccessors : Obligations.OperandAccessors :=
  fun _ _ _ _ _ => ⟨rfl, rfl, rfl, rfl, rfl, rfl⟩

end

section
/-! SUPPORT. The opcode bytes of a mnemonic, by the opcode map (30_encoding R179). -/

namespace Sys2Proof.Machine

/-- The mnemonic of a documented instruction is that of its cell, whatever the operand bytes. -/
theorem mnemonic_assemble_opcode {i : Instr} (h : i.mnemonic ≠ .unknown) :
    (assemble i.opcode 0#8 0#8).mnemonic = i.mnemonic := by
  cases i with
  | unknown _ => exact absurd rfl h
  | _ =>
    dsimp only [Instr.opcode]
    rfl

/-- The opcode byte of an instruction is one of those whose cells have its mnemonic. -/
theorem opcode_mem {i : Instr} {mn : Mnemonic} {ops : List Byte} (h : i.mnemonic = mn)
    (documented : mn ≠ .unknown := by decide)
    (cells : ∀ op, (assemble op 0#8 0#8).mnemonic = mn → op ∈ ops := by decide) : i.opcode ∈ ops := by
  subst h
  exact cells i.opcode (mnemonic_assemble_opcode documented)

end Sys2Proof.Machine
end

section
/-! SUPPORT. States with the same memory, and what an instruction that only reads its operand leaves (30_encoding R185). -/

namespace Sys2Proof.Machine

/-- `t` has the memories, the mapper registers and the cartridge of `s`. -/
structure SameMemory (s t : State) : Prop where
  ram : t.ram = s.ram
  prgRam : t.prgRam = s.prgRam
  sxrom : t.sxrom = s.sxrom
  unromPrgBank : t.unromPrgBank = s.unromPrgBank
  cnromChrBank : t.cnromChrBank = s.cnromChrBank
  cart : t.cart = s.cart

namespace SameMemory

variable {s t : State}

theorem memoryUnchanged (h : SameMemory s t) : memoryUnchanged s t :=
  fun a memory => readValue_congr_memory a memory h.ram h.prgRam h.sxrom h.unromPrgBank h.cart

theorem mapperUnchanged (h : SameMemory s t) : mapperUnchanged s t := ⟨h.sxrom, h.unromPrgBank, h.cnromChrBank⟩

theorem resolve (m : Mode) (s : State) : SameMemory s (resolve m s).2 := by
  rw [resolve_frame]
  exact ⟨rfl, rfl, rfl, rfl, rfl, rfl⟩

end SameMemory

/-- Resolving and loading an operand changes only the log and the draw counter. -/
theorem afterLoad_frame (m : Mode) (s : State) :
    afterLoad m s = { s with bus := (afterLoad m s).bus, draws := (afterLoad m s).draws } := by
  rw [afterLoad, load_frame, resolve_frame]

/-- The meaning of an instruction that reads its operand: its update of registers and flags, from the operand byte. -/
theorem readOp_eq (f : Byte → State → State) (op : Byte) (m : Mode) (s : State) :
    readOp f op m s =
      retire op (resolve m s).1.crossed false
        (f (operandByte m s) { s with bus := (afterLoad m s).bus, draws := (afterLoad m s).draws }) := by
  rw [← afterLoad_frame]
  rfl

theorem nzFlags_of_setNZ {v : Byte} {s t : State} (h : t.p = setNZ v s.p) : nzFlags v s t := by
  simp only [nzFlags, flag_eq, h, getFlag_setNZ]
  exact ⟨rfl, rfl, fun f hz hn => by rw [if_neg hn, if_neg hz]⟩

end Sys2Proof.Machine
end

section
/-! SUPPORT. The obligation on loads (40_load_store R220 to R222). -/

open Sys2Proof
open Sys2Proof.Machine

/-- Settles O22: the update of each load, from the operand byte. -/
theorem loadsSetRegisterAndNZ : Obligations.LoadsSetRegisterAndNZ := by
  intro i s v o n
  refine ⟨fun h => ⟨opcode_mem h, _, (exec_lda h s).trans (congrArg _ (readOp_eq ..)), ?_⟩,
    fun h => ⟨opcode_mem h, _, (exec_ldx h s).trans (congrArg _ (readOp_eq ..)), ?_⟩,
    fun h => ⟨opcode_mem h, _, (exec_ldy h s).trans (congrArg _ (readOp_eq ..)), ?_⟩⟩
  all_goals exact ⟨rfl, nzFlags_of_setNZ rfl, SameMemory.memoryUnchanged ⟨rfl, rfl, rfl, rfl, rfl, rfl⟩, rfl⟩

end

section
/-! SUPPORT. What a bus write does to memory and to the mapper registers (20_memory R73 to R79, R84, R111, R116, R141,
R146): the read after the write, and `storeEffect`. -/

namespace Sys2Proof.Machine

theorem sameByte_ram {a b : Word} (ha : route a = .ram) (hb : route b = .ram) :
    sameByte a b = decide (ramOffset a = ramOffset b) := by
  simp only [sameByte, ha, hb]
  grind

theorem sameByte_self (a : Word) : sameByte a a = true := by simp [sameByte]

/-- Outside RAM an address names the byte of no other one. -/
theorem sameByte_of_ne_ram {a b : Word} (h : ¬ (route a = .ram ∧ route b = .ram)) : sameByte a b = decide (a = b) := by
  simp only [sameByte]
  grind

theorem prgRamOffset_inj {a b : Word} (ha : 0x6000 ≤ a.toNat) (ha' : a.toNat < 0x8000) (hb : 0x6000 ≤ b.toNat)
    (hb' : b.toNat < 0x8000) : a.toNat % 0x2000 = b.toNat % 0x2000 ↔ a = b := by
  rw [BitVec.toNat_eq]
  omega

theorem busWrite_of_prgRam {a : Word} (h : 0x6000 ≤ a.toNat) (h' : a.toNat < 0x8000) (v : Byte) (s : State) :
    busWrite a v s =
      { s with prgRam := s.prgRam.write (a.toNat % 0x2000) v, bus := ⟨.cpu, .write, a, v⟩ :: s.bus } := by
  simp [busWrite, storeAt, route_cartridge h, prgStore_prgRam h']

/-- RAM and PRG-RAM are no device port (20_memory R99). -/
theorem isPort_of_storage {a : Word} (h : a.toNat < 0x2000 ∨ (0x6000 ≤ a.toNat ∧ a.toNat < 0x8000)) :
    isPort a = false := by
  obtain low | ⟨ge, -⟩ := h
  · exact isPort_ram (route_of_le a (by omega))
  · simp [isPort, route_cartridge ge]

/-- A read outside RAM does not see RAM. -/
theorem readValue_ram_irrelevant {a : Word} (h : route a ≠ .ram) (m : Memory) (bus : List BusEvent) (s : State) :
    readValue a { s with ram := m, bus := bus } = readValue a s := by
  cases hr : route a with
  | ram => contradiction
  | ppu | apu | input | unmapped | cartridge => simp only [readValue, hr, prgLoad, prgIndex]

/-- A read outside the PRG-RAM window does not see PRG-RAM. -/
theorem readValue_prgRam_irrelevant {a : Word} (h : ¬ (0x6000 ≤ a.toNat ∧ a.toNat < 0x8000)) (m : Memory)
    (bus : List BusEvent) (s : State) : readValue a { s with prgRam := m, bus := bus } = readValue a s := by
  by_cases rom : 0x8000 ≤ a.toNat
  · rw [readValue_prgRom rom, readValue_prgRom rom]
    rfl
  · have outside : route a ≠ .cartridge := by
      rw [route_eq]
      grind
    cases hr : route a with
    | cartridge => contradiction
    | ram | ppu | apu | input | unmapped => simp only [readValue, hr]

/-- The read after a write to storage: the byte written at every address that names the same byte, the old byte elsewhere. -/
theorem readValue_busWrite {s : State} (hs : s.Inv) {ea : Word}
    (storage : ea.toNat < 0x2000 ∨ (0x6000 ≤ ea.toNat ∧ ea.toNat < 0x8000)) (v : Byte) (a : Word) :
    readValue a (busWrite ea v s) = if sameByte ea a then v else readValue a s := by
  obtain low | ⟨ge, lt⟩ := storage
  · have ram : route ea = .ram := route_of_le ea (by omega)
    rw [busWrite_of_ram ram]
    by_cases ha : route a = .ram
    · simp only [readValue_ram ha, Memory.read_write _ _ _ _ hs.ramWf, sameByte_ram ram ha, decide_eq_true_eq]
    · have other : ea ≠ a := by
        rintro rfl
        exact ha ram
      simp [readValue_ram_irrelevant ha, sameByte_of_ne_ram (fun h => ha h.2), other]
  · have notRam : route ea ≠ .ram := by simp [route_cartridge ge]
    rw [busWrite_of_prgRam ge lt, sameByte_of_ne_ram (fun h => notRam h.1)]
    by_cases ha : 0x6000 ≤ a.toNat ∧ a.toNat < 0x8000
    · simp only [readValue_prgRam ha.1 ha.2, Memory.read_write _ _ _ _ hs.prgRamWf, prgRamOffset_inj ge lt ha.1 ha.2,
        decide_eq_true_eq]
    · have other : ea ≠ a := by
        rintro rfl
        exact ha ⟨ge, lt⟩
      simp [readValue_prgRam_irrelevant ha, other]

/-- A write to a device port or to an unmapped address changes no memory (20_memory R74, R77 to R79, R82). -/
theorem SameMemory.busWrite_discarded {a : Word} (h : 0x2000 ≤ a.toNat) (h' : a.toNat < 0x6000) (v : Byte) (s : State) :
    SameMemory s (busWrite a v s) := by
  have notRam : route a ≠ .ram := by
    rw [route_eq]
    grind
  have notCartridge : route a ≠ .cartridge := by
    rw [route_eq]
    grind
  rw [busWrite, storeAt]
  cases hr : route a with
  | ram | cartridge => contradiction
  | ppu =>
    simp only []
    split
    · rw [dmaReads_frame]
      exact ⟨rfl, rfl, rfl, rfl, rfl, rfl⟩
    · exact ⟨rfl, rfl, rfl, rfl, rfl, rfl⟩
  | apu | input | unmapped => exact ⟨rfl, rfl, rfl, rfl, rfl, rfl⟩

/-- A write at or above 0x8000 goes to the mapper (20_memory R110). -/
theorem busWrite_of_mapper {a : Word} (h : 0x8000 ≤ a.toNat) (v : Byte) (s : State) :
    busWrite a v s = prgStore a v { s with bus := ⟨.cpu, .write, a, v⟩ :: s.bus } := by
  rw [busWrite, storeAt, route_cartridge (by omega)]

/-- What a bus write does follows the address decode (20_memory R73 to R79, R84, R111, R116, R121 to R127, R141, R146). -/
theorem storeEffect_busWrite {s : State} (hs : s.Inv) (ea : Word) (v : Byte) : storeEffect ea v s (busWrite ea v s) := by
  refine ⟨fun storage => ⟨?_, fun a _ other => ?_, ?_⟩, fun ⟨ge, lt⟩ => ?_, fun rom => ?_⟩
  · rw [readValue_busWrite hs storage, sameByte_self, if_pos rfl]
  · rw [readValue_busWrite hs storage, other, if_neg Bool.false_ne_true]
  · obtain low | ⟨ge, lt⟩ := storage
    · rw [busWrite_of_ram (route_of_le ea (by omega))]
      exact ⟨rfl, rfl, rfl⟩
    · rw [busWrite_of_prgRam ge lt]
      exact ⟨rfl, rfl, rfl⟩
  · have same := SameMemory.busWrite_discarded ge lt v s
    exact ⟨same.memoryUnchanged, same.mapperUnchanged⟩
  · rw [busWrite_of_mapper rom, prgStore, if_neg (by rw [prgWindow_iff]; omega)]
    cases hm : s.cart.mapper with
    | nrom | sxrom | unrom | cnrom => simp [mapperUnchanged]

/-- The effect of a store depends only on what the states before and after hold in memory. -/
theorem SameMemory.storeEffect {s s' t t' : State} {ea : Word} {v : Byte} (hs : SameMemory s s') (ht : SameMemory t t')
    (h : storeEffect ea v s' t) : storeEffect ea v s t' := by
  obtain ⟨storage, discarded, rom⟩ := h
  have mapper (kept : Machine.mapperUnchanged s' t) : Machine.mapperUnchanged s t' := by
    simpa only [Machine.mapperUnchanged, hs.sxrom, hs.unromPrgBank, hs.cnromChrBank, ht.sxrom, ht.unromPrgBank,
      ht.cnromChrBank] using kept
  have reads {a : Word} (memory : isPort a = false) (kept : readValue a t = readValue a s') :
      readValue a t' = readValue a s :=
    (ht.memoryUnchanged a memory).trans (kept.trans (hs.memoryUnchanged a memory))
  refine ⟨fun range => ?_, fun range => ?_, fun range => ?_⟩
  · obtain ⟨value, kept, registers⟩ := storage range
    exact ⟨(ht.memoryUnchanged ea (isPort_of_storage range)).trans value,
      fun a memory other => reads memory (kept a memory other), mapper registers⟩
  · obtain ⟨kept, registers⟩ := discarded range
    exact ⟨fun a memory => reads memory (kept a memory), mapper registers⟩
  · simpa only [Machine.mapperUnchanged, hs.ram, hs.prgRam, hs.sxrom, hs.unromPrgBank, hs.cnromChrBank, hs.cart, ht.ram,
      ht.prgRam, ht.sxrom, ht.unromPrgBank, ht.cnromChrBank, ht.cart] using rom range

end Sys2Proof.Machine
end

section
/-! SUPPORT. What an instruction that stores to its operand leaves (30_encoding R185; 40_load_store R223 to R225). -/

namespace Sys2Proof.Machine

/-- Away from the Accumulator mode, the operand of an instruction that stores to it is a memory address. -/
theorem resolve_of_storing {i : Instr} (h : i.mnemonic ∈ storingMnemonics) (hm : i.mode ≠ .accumulator) (s : State) :
    ∃ ea crossed, (resolve i.mode s).1 = .mem ea crossed := by
  cases i <;> simp_all [storingMnemonics, Instr.mnemonic, Instr.mode, resolve]

/-- An instruction that stores to its operand has no page-cross penalty (30_encoding R201). -/
theorem cyclesOf_of_storing {i : Instr} (h : i.mnemonic ∈ storingMnemonics) (crossed : Bool) :
    cyclesOf i.opcode crossed false = cyclesOf i.opcode false false := by
  have mark : penaltyMark i.mnemonic i.mode = .fixed := by
    have : ∀ mn ∈ storingMnemonics, mn ∉ branchMnemonics ∧ mn ∉ readCrossMnemonics := by decide
    simp [penaltyMark, this i.mnemonic h]
  have documented : i.mnemonic ≠ .unknown := by
    intro unknown
    rw [unknown] at h
    exact absurd h (by decide)
  rw [cyclesOf_eq, cyclesOf_eq, (cell_opcode documented).2, mark]
  simp

/-- The event a bus write adds, and at 0x4014 the 256 DMA reads after it (20_memory R82, R98). -/
theorem busWrite_log (a : Word) (v : Byte) (s : State) :
    (a ≠ 0x4014#16 → (busWrite a v s).bus = ⟨.cpu, .write, a, v⟩ :: s.bus) ∧
    (a = 0x4014#16 →
      (busWrite a v s).bus.drop 256 = ⟨.cpu, .write, a, v⟩ :: s.bus ∧
      ∀ e ∈ (busWrite a v s).bus.take 256, e.master = .dma ∧ e.access = .read) := by
  obtain ⟨new, hbus, hother, hdma⟩ := busWrite_bus a v s
  refine ⟨fun other => by rw [hbus, hother other, List.nil_append], fun dma => ?_⟩
  obtain ⟨hlength, hevents⟩ := hdma dma
  rw [hbus, ← hlength, List.drop_left, List.take_left]
  exact ⟨rfl, hevents⟩

/-- The register a store instruction writes. -/
def storedRegister (mn : Mnemonic) (s : State) : Byte := if mn = .sta then s.a else if mn = .stx then s.x else s.y

/-- The meaning of a store instruction: one bus write of its register at the address its mode resolves to. -/
theorem exec_store {i : Instr} (h : i.mnemonic = .sta ∨ i.mnemonic = .stx ∨ i.mnemonic = .sty) {s : State} {ea : Word}
    {crossed : Bool} (operand : (resolve i.mode s).1 = .mem ea crossed) :
    exec i s =
      .next (retire i.opcode crossed false (busWrite ea (storedRegister i.mnemonic s) (resolve i.mode s).2)) := by
  have register : storedRegister i.mnemonic s = storedRegister i.mnemonic (resolve i.mode s).2 := by
    rw [resolve_frame]
    rfl
  rw [register, exec_eq]
  obtain h | h | h := h
  all_goals
    rw [h]
    simp only [executeMnemonic, staOp, stxOp, styOp, storeOp, operand]
    rfl

end Sys2Proof.Machine
end

section
/-! SUPPORT. The obligation on stores (40_load_store R223 to R225). -/

open Sys2Proof
open Sys2Proof.Machine

/-- Settles O23: a store is one bus write, and what that does follows the address decode. -/
theorem storesWriteTheEffectiveAddress : Obligations.StoresWriteTheEffectiveAddress := by
  intro i s store inv v
  obtain ⟨storing, notShift⟩ :
      i.mnemonic ∈ storingMnemonics ∧ i.mnemonic ∉ [Mnemonic.asl, .lsr, .rol, .ror] := by
    obtain h | h | h := store <;> simp [h, storingMnemonics]
  obtain ⟨ea, crossed, operand⟩ :=
    resolve_of_storing storing (fun acc => notShift (mnemonic_of_mode_accumulator acc)) s
  refine ⟨?_, ea, crossed, _, operand, exec_store store operand, ?_, ?_, busWrite_log ea v (resolve i.mode s).2⟩
  · obtain h | h | h := store <;> exact opcode_mem h
  · have resolved : (resolve i.mode s).2.Inv := (Within.resolve (w := footprint i.mnemonic i.mode) i.mode).inv inv
    exact SameMemory.storeEffect (.resolve i.mode s) ⟨rfl, rfl, rfl, rfl, rfl, rfl⟩ (storeEffect_busWrite resolved ea v)
  · rw [retire, cyclesOf_of_storing storing, busWrite_frame, resolve_frame]

end

section
/-! SUPPORT. What an instruction in Implied mode leaves: its update of the state, and its count (30_encoding R186, R200). -/

namespace Sys2Proof.Machine

/-- An Implied instruction of two cycles is its update of the state, with nothing resolved or read for it. -/
theorem exec_implied {i : Instr} {s : State} {f : State → State}
    (meaning : exec i s = .next (impliedOp f i.opcode i.mode s)) (implied : i.mode = .implied := by rfl)
    (count : cyclesOf i.opcode false false = 2 := by rfl) : exec i s = .next { f s with stepCycles := 2 } := by
  rw [meaning, implied, ← count]
  rfl

end Sys2Proof.Machine
end

section
/-! SUPPORT. The obligation on register transfers (41_transfer R230 to R235). -/

open Sys2Proof
open Sys2Proof.Machine

/-- Settles O32: the update of each transfer; all but TXS set Z and N from the source. -/
theorem transfersCopyRegisters : Obligations.TransfersCopyRegisters := by
  refine ⟨rfl, fun s => ⟨⟨_, exec_implied (exec_tax rfl s), ?_⟩, ⟨_, exec_implied (exec_tay rfl s), ?_⟩,
    ⟨_, exec_implied (exec_txa rfl s), ?_⟩, ⟨_, exec_implied (exec_tya rfl s), ?_⟩,
    ⟨_, exec_implied (exec_tsx rfl s), ?_⟩, exec_implied (exec_txs rfl s)⟩⟩
  all_goals exact ⟨nzFlags_of_setNZ rfl, rfl⟩

end

section
/-! SUPPORT. The stack by single bytes (10_state R39 to R41): the byte pushed for P and its restoration, memory after a push,
and a pull that meets the stack as a push left it. -/

namespace Sys2Proof.Machine

/-- PHP pushes P with B and bit 5 set (42_stack R241). -/
theorem pushedP_true (p : Byte) : pushedP true p = p ||| 0x30#8 := by
  apply eq_of_getFlag
  intro f
  rw [getFlag_pushedP]
  cases f <;> simp [getFlag, flagBit]

/-- A status byte with bit 5 set and B clear comes back whole, whatever B it was pushed with. -/
theorem restoreP_pushedP {p : Byte} (bit5 : getFlag .u p = true) (break0 : getFlag .b p = false) (brk : Bool) :
    restoreP (pushedP brk p) = p := by
  apply eq_of_getFlag
  intro f
  rw [getFlag_restoreP, getFlag_pushedP]
  by_cases hb : f = .b
  · simp [hb, break0]
  by_cases hu : f = .u
  · simp [hu, bit5]
  · simp [hb, hu]

/-- A push writes the byte at the stack address and no other byte of memory (20_memory R75, R103). -/
theorem push_memory {s t : State} (hs : s.Inv) {v : Byte} (after : SameMemory (push v s) t) :
    readValue (stackAddress s.sp) t = v ∧ memoryUnchangedExcept (stackAddress s.sp) s t := by
  have inRam : (stackAddress s.sp).toNat < 0x2000 := by
    rw [toNat_stackAddress]
    omega
  have written : SameMemory (busWrite (stackAddress s.sp) v s) t :=
    ⟨after.ram, after.prgRam, after.sxrom, after.unromPrgBank, after.cnromChrBank, after.cart⟩
  have before : SameMemory s s := ⟨rfl, rfl, rfl, rfl, rfl, rfl⟩
  obtain ⟨storage, -⟩ := before.storeEffect written (storeEffect_busWrite hs (stackAddress s.sp) v)
  obtain ⟨value, kept, -⟩ := storage (.inl inRam)
  exact ⟨value, kept⟩

/-- A pull with RAM and S as a push left them gives the byte pushed, and S from before the push. -/
theorem pull_of_push {s u : State} (hs : s.Inv) {v : Byte} (ram : u.ram = (push v s).ram) (sp : u.sp = (push v s).sp) :
    (pull u).1 = v ∧ (pull u).2.sp = s.sp := by
  rw [push_eq] at ram sp
  have back : u.sp + 1#8 = s.sp := by rw [sp, BitVec.sub_add_cancel]
  rw [pull_eq, back, ram]
  exact ⟨by rw [Memory.read_write _ _ _ _ hs.ramWf, if_pos rfl], rfl⟩

/-- An Implied instruction is its update of the state and the count of its opcode. -/
theorem exec_implied_cycles {i : Instr} {s : State} {f : State → State} {n : Nat}
    (meaning : exec i s = .next (impliedOp f i.opcode i.mode s)) (implied : i.mode = .implied)
    (count : cyclesOf i.opcode false false = n) : exec i s = .next { f s with stepCycles := n } := by
  rw [meaning, implied, ← count]
  rfl

/-! Each stack instruction by its one push or pull, with its count (42_stack R240 to R243). -/

theorem exec_pha_eq (s : State) : exec .pha s = .next { push s.a s with stepCycles := 3 } :=
  exec_implied_cycles (exec_pha rfl s) rfl rfl

theorem exec_php_eq (s : State) : exec .php s = .next { push (pushedP true s.p) s with stepCycles := 3 } :=
  exec_implied_cycles (exec_php rfl s) rfl rfl

theorem exec_pla_eq (s : State) :
    exec .pla s = .next { (pull s).2 with a := (pull s).1, p := setNZ (pull s).1 s.p, stepCycles := 4 } :=
  exec_implied_cycles (exec_pla rfl s) rfl rfl

theorem exec_plp_eq (s : State) : exec .plp s = .next { (pull s).2 with p := restoreP (pull s).1, stepCycles := 4 } :=
  exec_implied_cycles (exec_plp rfl s) rfl rfl

end Sys2Proof.Machine
end

section
/-! SUPPORT. The obligations on the stack instructions (42_stack R240 to R243). -/

open Sys2Proof
open Sys2Proof.Machine

/-- Settles O37: the pull gives the byte pushed, which A takes whole and P up to B and bit 5, fixed by the invariant. -/
theorem pushThenPullRestores : Obligations.PushThenPullRestores := by
  intro s a x y p inv
  have pulled (v : Byte) := pull_of_push (v := v) (u := { push v s with a, x, y, p, stepCycles := 3 }) inv rfl rfl
  refine ⟨⟨_, _, exec_pha_eq s, exec_pla_eq _, ?_⟩, ⟨_, _, exec_php_eq s, exec_plp_eq _, ?_⟩⟩
  · obtain ⟨value, sp⟩ := pulled s.a
    simp [value, sp, getFlag_setNZ]
  · obtain ⟨value, sp⟩ := pulled (pushedP true s.p)
    exact ⟨(congrArg restoreP value).trans (restoreP_pushedP inv.bit5 inv.break0 true), sp⟩

/-- Settles O35: PHA and PHP are one push, of A and of P with B and bit 5 set. -/
theorem pushesWriteTheStack : Obligations.PushesWriteTheStack := by
  refine ⟨rfl, rfl, fun s inv e he => ?_⟩
  have pushes : exec e.1 s = .next { push e.2 s with stepCycles := 3 } := by
    simp only [List.mem_cons, List.not_mem_nil, or_false] at he
    obtain rfl | rfl := he
    · exact exec_pha_eq s
    · exact pushedP_true s.p ▸ exec_php_eq s
  exact ⟨_, pushes, by rw [push_eq], push_memory inv ⟨rfl, rfl, rfl, rfl, rfl, rfl⟩⟩

/-- Settles O36: PLA and PLP are one pull, then N and Z from its byte, or P restored from it. -/
theorem pullsReadTheStack : Obligations.PullsReadTheStack := by
  refine ⟨rfl, rfl, fun s => ⟨⟨_, exec_pla_eq s, ?_⟩, ⟨_, exec_plp_eq s, ?_⟩⟩⟩
  · rw [pull_eq]
    exact ⟨rfl, nzFlags_of_setNZ rfl, rfl⟩
  · rw [pull_eq]
    refine ⟨getFlag_restoreP .b _, getFlag_restoreP .u _, fun f hb hu => ?_, rfl⟩
    rw [flag_eq, getFlag_restoreP, if_neg hb, if_neg hu]

end

section
/-! SUPPORT. The adder by arithmetic (43_arithmetic R250): its byte modulo 256, its carry and its signed overflow, and what
SBC's complemented operand makes of them (43_arithmetic R252). -/

namespace Sys2Proof.Machine

theorem toNat_add8 (a m : Byte) (c : Bool) : (add8 a m c).result.toNat = (a.toNat + m.toNat + c.toNat) % 256 :=
  BitVec.toNat_ofNat _ 8

/-- The sign bits that R250's formula compares: the result's differs from both operands'. -/
theorem add8_overflow_eq_msb (a m : Byte) (c : Bool) :
    (add8 a m c).overflow =
      ((a.msb ^^ (add8 a m c).result.msb) && (m.msb ^^ (add8 a m c).result.msb)) := by
  have signBit (x : Byte) : (x &&& 0x80#8 != 0#8) = x.msb := by
    revert x
    decide
  rw [← BitVec.msb_xor, ← BitVec.msb_xor, ← BitVec.msb_and, ← signBit]
  rfl

/-- The sign bits tell whether the exact signed sum fits in a byte. -/
theorem add8_overflow (a m : Byte) (c : Bool) :
    (add8 a m c).overflow =
      decide (a.toInt + m.toInt + c.toNat < -128 ∨ 127 < a.toInt + m.toInt + c.toNat) := by
  have carryIn := c.toNat_le
  have ha := a.isLt
  have hm := m.isLt
  rw [add8_overflow_eq_msb, Bool.eq_iff_iff]
  simp only [BitVec.msb_eq_decide, BitVec.toInt_eq_toNat_cond, toNat_add8, Bool.and_eq_true, bne_iff_ne, ne_eq,
    decide_eq_decide, decide_eq_true_eq]
  omega

/-! The complement of the operand, as a number and as a signed number. -/

theorem toNat_complement (m : Byte) : (m ^^^ 0xFF#8).toNat = 255 - m.toNat := by
  rw [show (0xFF#8 : Byte) = BitVec.allOnes 8 from rfl, BitVec.xor_allOnes, BitVec.toNat_not]

theorem toInt_complement (m : Byte) : (m ^^^ 0xFF#8).toInt = -m.toInt - 1 := by
  have hm := m.isLt
  rw [BitVec.toInt_eq_toNat_cond, BitVec.toInt_eq_toNat_cond, toNat_complement]
  omega

/-! Adding the complement subtracts: the carry is an inverted borrow. -/

theorem toNat_add8_complement (a m : Byte) (c : Bool) :
    (add8 a (m ^^^ 0xFF#8) c).result.toNat = (a.toNat + 256 - m.toNat - (1 - c.toNat)) % 256 := by
  have carryIn := c.toNat_le
  have hm := m.isLt
  rw [toNat_add8, toNat_complement]
  omega

theorem add8_complement_carry (a m : Byte) (c : Bool) :
    (add8 a (m ^^^ 0xFF#8) c).carry = decide (m.toNat + (1 - c.toNat) ≤ a.toNat) := by
  have carryIn := c.toNat_le
  have hm := m.isLt
  simp only [add8, toNat_complement, decide_eq_decide]
  omega

theorem add8_complement_overflow (a m : Byte) (c : Bool) :
    (add8 a (m ^^^ 0xFF#8) c).overflow =
      decide (a.toInt - m.toInt - (1 - c.toNat : Nat) < -128 ∨ 127 < a.toInt - m.toInt - (1 - c.toNat : Nat)) := by
  have carryIn := c.toNat_le
  rw [add8_overflow, toInt_complement, decide_eq_decide]
  omega

/-- The flags after A takes the adder's result: C and V from the adder, Z and N from A, every other flag kept. -/
theorem flag_of_addFlags {r : AddResult} {s t : State} (ha : t.a = r.result) (hp : t.p = addFlags r s.p) :
    t.flag .c = r.carry ∧ t.flag .v = r.overflow ∧ t.flag .z = (t.a == 0#8) ∧ t.flag .n = t.a.getLsbD 7 ∧
      ∀ f, f ≠ .c → f ≠ .v → f ≠ .z → f ≠ .n → t.flag f = s.flag f := by
  simp only [flag_eq, ha, hp, getFlag_addFlags]
  exact ⟨rfl, rfl, rfl, rfl, fun f hc hv hz hn => by rw [if_neg hn, if_neg hz, if_neg hv, if_neg hc]⟩

/-- An instruction that is the adder on A and a function of the operand byte: A and P take the adder's result, memory is
kept, and only the log, the draw counter and the count change besides. -/
theorem exec_adder {i : Instr} {s : State} {g : Byte → Byte}
    (meaning : exec i s = .next (readOp (fun m s =>
      let r := add8 s.a (g m) (s.flag .c)
      { s with a := r.result, p := addFlags r s.p }) i.opcode i.mode s)) :
    let r := add8 s.a (g (operandByte i.mode s)) (s.flag .c)
    let o := afterLoad i.mode s
    ∃ t, exec i s = .next t ∧ t.a = r.result ∧ t.p = addFlags r s.p ∧ memoryUnchanged s t ∧
      t = { s with
        a := t.a, p := t.p, bus := o.bus, draws := o.draws
        stepCycles := cyclesOf i.opcode (resolve i.mode s).1.crossed false } :=
  ⟨_, meaning.trans (congrArg _ (readOp_eq ..)), rfl, rfl,
    SameMemory.memoryUnchanged ⟨rfl, rfl, rfl, rfl, rfl, rfl⟩, rfl⟩

end Sys2Proof.Machine
end

section
/-! SUPPORT. The obligations on ADC and SBC (43_arithmetic R251, R252). -/

open Sys2Proof
open Sys2Proof.Machine

/-- Settles O26: ADC is the adder on A and the operand byte, whose sign bits say when the signed sum overflows. -/
theorem adcAddsWithCarry : Obligations.AdcAddsWithCarry := by
  intro i s h m o sum signed
  obtain ⟨t, run, result, status, memory, frame⟩ := exec_adder (g := id) (exec_adc h s)
  obtain ⟨carry, overflow, zero, negative, kept⟩ := flag_of_addFlags result status
  refine ⟨opcode_mem h, t, run, ?_, carry, ?_, ?_, zero, negative, kept, memory, frame⟩
  · exact (congrArg BitVec.toNat result).trans (toNat_add8 s.a m _)
  · exact overflow.trans (add8_overflow s.a m _)
  · rw [overflow, result]
    rfl

/-- Settles O27: SBC is the adder on A and the complemented operand byte, which subtracts with C an inverted borrow. -/
theorem sbcSubtractsWithBorrow : Obligations.SbcSubtractsWithBorrow := by
  intro i s h m o borrow signed
  obtain ⟨t, run, result, status, memory, frame⟩ := exec_adder (g := (· ^^^ 0xFF#8)) (exec_sbc h s)
  obtain ⟨carry, overflow, zero, negative, kept⟩ := flag_of_addFlags result status
  refine ⟨opcode_mem h, t, run, ?_, ?_, ?_, ?_, zero, negative, kept, memory, frame⟩
  · exact (congrArg BitVec.toNat result).trans (toNat_add8_complement s.a m _)
  · exact carry.trans (add8_complement_carry s.a m _)
  · exact overflow.trans (add8_complement_overflow s.a m _)
  · rw [overflow, result]
    rfl

end

section
/-! SUPPORT. What a bitwise operation of A with the operand byte leaves (44_logical). -/

namespace Sys2Proof.Machine

/-- An instruction that is a function of A and the operand byte: A takes the result, Z and N follow it, memory is kept, and
only the log, the draw counter and the count change besides. -/
theorem exec_logical {i : Instr} {s : State} {g : Byte → Byte → Byte}
    (meaning : exec i s = .next (readOp (fun m s => { s with a := g s.a m, p := setNZ (g s.a m) s.p }) i.opcode i.mode s))
    {r : Byte} (result : r = g s.a (operandByte i.mode s)) :
    let o := afterLoad i.mode s
    ∃ t, exec i s = .next t ∧ t.a = r ∧ nzFlags r s t ∧ memoryUnchanged s t ∧
      t = { s with
        a := t.a, p := t.p, bus := o.bus, draws := o.draws
        stepCycles := cyclesOf i.opcode (resolve i.mode s).1.crossed false } := by
  subst result
  exact ⟨_, meaning.trans (congrArg _ (readOp_eq ..)), rfl, nzFlags_of_setNZ rfl,
    SameMemory.memoryUnchanged ⟨rfl, rfl, rfl, rfl, rfl, rfl⟩, rfl⟩

end Sys2Proof.Machine
end

section
/-! SUPPORT. The obligation on AND, ORA and EOR (44_logical R260 to R262). -/

open Sys2Proof
open Sys2Proof.Machine

/-- Settles O29: each mnemonic is its own bitwise function of A and the operand byte. -/
theorem logicalOperationsOnA : Obligations.LogicalOperationsOnA := by
  intro i s h m o r
  refine ⟨opcode_mem, opcode_mem, opcode_mem, ?_⟩
  obtain h | h | h := h
  · exact exec_logical (g := (· &&& ·)) (exec_and h s) (by simp [r, m, h])
  · exact exec_logical (g := (· ||| ·)) (exec_ora h s) (by simp [r, m, h])
  · exact exec_logical (g := (· ^^^ ·)) (exec_eor h s) (by simp [r, m, h])

end

section
/-! SUPPORT. What a comparison of a register or of A's bits with the operand byte leaves (45_compare_bit). -/

namespace Sys2Proof.Machine

/-- An instruction whose mnemonic has no penalty mark takes no cycle more for a page cross (30_encoding R201, R202). -/
theorem cyclesOf_of_unmarked {i : Instr} (documented : i.mnemonic ≠ .unknown) (hb : i.mnemonic ∉ branchMnemonics)
    (hc : i.mnemonic ∉ readCrossMnemonics) (crossed : Bool) :
    cyclesOf i.opcode crossed false = cyclesOf i.opcode false false := by
  have mark : penaltyMark i.mnemonic i.mode = .fixed := by simp [penaltyMark, hb, hc]
  simp [cyclesOf_eq, (cell_opcode documented).2, mark]

/-- An instruction that writes P alone, from a register and the operand byte: memory is kept, and only the log, the draw
counter and the count change besides. -/
theorem exec_statusOnly {i : Instr} {s : State} {reg : State → Byte} {g : Byte → Byte → Byte → Byte}
    (meaning : exec i s = .next (readOp (fun m s => { s with p := g (reg s) m s.p }) i.opcode i.mode s))
    {r : Byte} (register : ∀ bus draws, reg { s with bus := bus, draws := draws } = r) :
    let o := afterLoad i.mode s
    ∃ t, exec i s = .next t ∧ t.p = g r (operandByte i.mode s) s.p ∧ memoryUnchanged s t ∧
      t = { s with
        p := t.p, bus := o.bus, draws := o.draws
        stepCycles := cyclesOf i.opcode (resolve i.mode s).1.crossed false } :=
  ⟨_, meaning.trans (congrArg _ (readOp_eq ..)), congrArg (g · _ _) (register _ _),
    SameMemory.memoryUnchanged ⟨rfl, rfl, rfl, rfl, rfl, rfl⟩, rfl⟩

/-- Bit 7 of a difference modulo 256, by arithmetic. -/
theorem getLsbD_seven_sub (r m : Byte) :
    (r - m).getLsbD 7 = decide (128 ≤ (r.toNat + 256 - m.toNat) % 256) := by
  have hm := m.isLt
  have difference : (r - m).toNat = (r.toNat + 256 - m.toNat) % 256 := by
    rw [BitVec.toNat_sub]
    omega
  rw [← difference]
  exact BitVec.msb_eq_decide (r - m)

/-- The flags after a comparison: C, Z and N from the register and the operand byte, every other flag kept. -/
theorem flag_of_compareFlags {r m : Byte} {s t : State} (h : t.p = compareFlags r m s.p) :
    t.flag .c = decide (m.toNat ≤ r.toNat) ∧ t.flag .z = decide (r = m) ∧
      t.flag .n = decide (128 ≤ (r.toNat + 256 - m.toNat) % 256) ∧
      ∀ f, f ≠ .c → f ≠ .z → f ≠ .n → t.flag f = s.flag f := by
  simp only [flag_eq, h, getFlag_compareFlags]
  exact ⟨rfl, beq_eq_decide .., getLsbD_seven_sub r m, fun f hc hz hn => by rw [if_neg hn, if_neg hz, if_neg hc]⟩

/-- The flags after BIT: Z from A and the operand byte, N and V from the operand byte, every other flag kept. -/
theorem flag_of_bitFlags {m : Byte} {s t : State} (h : t.p = bitFlags s.a m s.p) :
    t.flag .z = ((s.a &&& m) == 0#8) ∧ t.flag .n = m.getLsbD 7 ∧ t.flag .v = m.getLsbD 6 ∧
      ∀ f, f ≠ .z → f ≠ .n → f ≠ .v → t.flag f = s.flag f := by
  simp only [flag_eq, h, getFlag_bitFlags]
  exact ⟨rfl, rfl, rfl, fun f hz hn hv => by rw [if_neg hv, if_neg hn, if_neg hz]⟩

/-- A comparison sets the flags from the register its mnemonic names and the operand byte. -/
theorem exec_compare {i : Instr} (h : i.mnemonic = .cmp ∨ i.mnemonic = .cpx ∨ i.mnemonic = .cpy) (s : State) :
    let r := if i.mnemonic = .cmp then s.a else if i.mnemonic = .cpx then s.x else s.y
    let o := afterLoad i.mode s
    ∃ t, exec i s = .next t ∧ t.p = compareFlags r (operandByte i.mode s) s.p ∧ memoryUnchanged s t ∧
      t = { s with
        p := t.p, bus := o.bus, draws := o.draws
        stepCycles := cyclesOf i.opcode (resolve i.mode s).1.crossed false } := by
  intro r
  obtain h | h | h := h
  · exact exec_statusOnly (reg := State.a) (exec_cmp h s) fun _ _ => by simp [r, h]
  · exact exec_statusOnly (reg := State.x) (exec_cpx h s) fun _ _ => by simp [r, h]
  · exact exec_statusOnly (reg := State.y) (exec_cpy h s) fun _ _ => by simp [r, h]

end Sys2Proof.Machine
end

section
/-! SUPPORT. The obligations on CMP, CPX, CPY and BIT (45_compare_bit R270 to R274). -/

open Sys2Proof
open Sys2Proof.Machine

/-- Settles O30: one comparison, of the register that the mnemonic names. -/
theorem comparesSetCZN : Obligations.ComparesSetCZN := by
  intro i s h m o r
  obtain ⟨t, run, status, memory, frame⟩ := exec_compare h s
  obtain ⟨carry, zero, negative, kept⟩ := flag_of_compareFlags status
  exact ⟨opcode_mem, opcode_mem, opcode_mem, t, run, carry, zero, negative, kept, memory, frame⟩

/-- Settles O31: BIT writes P alone, and its cycle count has no page-cross penalty. -/
theorem bitTestsMemory : Obligations.BitTestsMemory := by
  intro i s h m o
  obtain ⟨t, run, status, memory, frame⟩ := exec_statusOnly (reg := State.a) (exec_bit h s) fun _ _ => rfl
  obtain ⟨zero, negative, overflow, kept⟩ := flag_of_bitFlags status
  have count := cyclesOf_of_unmarked (i := i) (by simp [h]) (by simp [h, branchMnemonics]) (by simp [h, readCrossMnemonics])
  rw [count] at frame
  exact ⟨opcode_mem h, t, run, zero, negative, overflow, kept, memory, frame⟩

end

section
/-! SUPPORT. The read-modify-write instructions as one operation (46_shift_rotate R280 to R284; 47_inc_dec R290, R291): the
byte and the carry by arithmetic, and the flags they leave. -/

namespace Sys2Proof.Machine

/-- The byte a read-modify-write mnemonic leaves and its carry, by arithmetic. -/
def modified (mn : Mnemonic) (v : Byte) (carry : Bool) : ShiftResult :=
  ⟨BitVec.ofNat 8 (modifyResult mn v carry), modifyCarry mn v carry⟩

/-! Shifts by one place, as numbers. -/

theorem shiftLeft_one_eq (v : Byte) : v <<< 1 = BitVec.ofNat 8 (v.toNat * 2 % 256) := by
  apply BitVec.eq_of_toNat_eq
  rw [BitVec.toNat_shiftLeft, BitVec.toNat_ofNat, Nat.shiftLeft_eq]
  omega

theorem shiftRight_one_eq (v : Byte) : v >>> 1 = BitVec.ofNat 8 (v.toNat / 2) := by
  have hv := v.isLt
  apply BitVec.eq_of_toNat_eq
  rw [BitVec.toNat_ushiftRight, BitVec.toNat_ofNat, Nat.shiftRight_eq_div_pow]
  omega

/-- Setting a free place adds its weight. -/
theorem or_twoPow_of_free {v : Byte} {k : Nat} (free : v.getLsbD k = false) :
    v ||| BitVec.twoPow 8 k = v + BitVec.twoPow 8 k := by
  refine (BitVec.add_eq_or_of_and_eq_zero _ _ ?_).symm
  rw [BitVec.and_twoPow, free]
  rfl

/-! The place a shift leaves free, where the carry comes in. -/

theorem shiftLeft_one_or (v : Byte) : v <<< 1 ||| 0x01#8 = v <<< 1 + 0x01#8 := or_twoPow_of_free (k := 0) (by simp)

theorem shiftRight_one_or (v : Byte) : v >>> 1 ||| 0x80#8 = v >>> 1 + 0x80#8 := or_twoPow_of_free (k := 7) (by simp)

/-! The bit shifted out, as a number. -/

theorem getLsbD_seven_eq (v : Byte) : v.getLsbD 7 = decide (128 ≤ v.toNat) := BitVec.msb_eq_decide v

theorem getLsbD_zero_eq (v : Byte) : v.getLsbD 0 = decide (v.toNat % 2 = 1) := by
  simpa using getLsbD_eq_decide v 0

/-! Each operation of the model is the arithmetic of its mnemonic. -/

theorem shiftAsl_eq (v : Byte) (c : Bool) : shiftAsl v c = modified .asl v c := by
  rw [shiftAsl, shiftLeft_one_eq, getLsbD_seven_eq]
  rfl

theorem shiftLsr_eq (v : Byte) (c : Bool) : shiftLsr v c = modified .lsr v c := by
  rw [shiftLsr, shiftRight_one_eq, getLsbD_zero_eq]
  rfl

theorem shiftRol_eq (v : Byte) (c : Bool) : shiftRol v c = modified .rol v c := by
  have byte : (v <<< 1 ||| if c then 0x01#8 else 0x00#8) = BitVec.ofNat 8 ((v.toNat * 2 + c.toNat) % 256) := by
    cases c with
    | false => simpa using shiftLeft_one_eq v
    | true =>
      rw [if_pos rfl, shiftLeft_one_or, shiftLeft_one_eq, ← BitVec.ofNat_add]
      apply BitVec.eq_of_toNat_eq
      simp
  rw [shiftRol, byte, getLsbD_seven_eq]
  rfl

theorem shiftRor_eq (v : Byte) (c : Bool) : shiftRor v c = modified .ror v c := by
  have byte : (v >>> 1 ||| if c then 0x80#8 else 0x00#8) = BitVec.ofNat 8 (v.toNat / 2 + c.toNat * 128) := by
    cases c with
    | false => simpa using shiftRight_one_eq v
    | true => rw [if_pos rfl, shiftRight_one_or, shiftRight_one_eq, ← BitVec.ofNat_add]; rfl
  rw [shiftRor, byte, getLsbD_zero_eq]
  rfl

theorem modified_inc (v : Byte) (c : Bool) : modified .inc v c = ⟨v + 1#8, c⟩ := by
  have byte : BitVec.ofNat 8 ((v.toNat + 1) % 256) = v + 1#8 := by bv_omega
  rw [← byte]
  rfl

theorem modified_dec (v : Byte) (c : Bool) : modified .dec v c = ⟨v - 1#8, c⟩ := by
  have byte : BitVec.ofNat 8 ((v.toNat + 255) % 256) = v - 1#8 := by bv_omega
  rw [← byte]
  rfl

/-- With the carry it has, a status byte takes Z and N alone. -/
theorem shiftFlags_carry (r p : Byte) : shiftFlags ⟨r, getFlag .c p⟩ p = setNZ r p := by
  apply eq_of_getFlag
  intro f
  rw [getFlag_shiftFlags, getFlag_setNZ]
  by_cases hc : f = .c
  · simp [hc]
  · rw [if_neg hc]

/-- The meaning of a read-modify-write instruction: the result and the flags by arithmetic. -/
theorem exec_modify {i : Instr} (h : i.mnemonic ∈ modifyMnemonics) (s : State) :
    exec i s =
      .next (modifyOp (fun v c => (modified i.mnemonic v c).result)
        (fun v p => shiftFlags (modified i.mnemonic v (getFlag .c p)) p) i.opcode i.mode s) := by
  simp only [modifyMnemonics, List.mem_cons, List.not_mem_nil, or_false] at h
  obtain h | h | h | h | h | h := h
  · simp only [exec_asl h, aslOp, h, shiftAsl_eq]
  · simp only [exec_lsr h, lsrOp, h, shiftLsr_eq]
  · simp only [exec_rol h, rolOp, h, shiftRol_eq]
  · simp only [exec_ror h, rorOp, h, shiftRor_eq]
  · simp only [exec_inc h, incOp, h, modified_inc, shiftFlags_carry]
  · simp only [exec_dec h, decOp, h, modified_dec, shiftFlags_carry]

theorem storing_of_modify {mn : Mnemonic} (h : mn ∈ modifyMnemonics) : mn ∈ storingMnemonics :=
  List.mem_of_mem_drop (i := 3) h

/-- The flags after a shift or rotate: C, Z and N from its result, every other flag kept. -/
theorem flag_of_shiftFlags {r : ShiftResult} {s t : State} (h : t.p = shiftFlags r s.p) :
    t.flag .c = r.carry ∧ t.flag .z = (r.result == 0#8) ∧ t.flag .n = r.result.getLsbD 7 ∧
      ∀ f, f ≠ .c → f ≠ .z → f ≠ .n → t.flag f = s.flag f := by
  simp only [flag_eq, h, getFlag_shiftFlags]
  exact ⟨rfl, rfl, rfl, fun f hc hz hn => by rw [if_neg hn, if_neg hz, if_neg hc]⟩

/-- On memory, a read-modify-write is one bus write at the address its mode resolves to, after the operand is loaded: what
it leaves is what the write leaves, but for P and the count. -/
theorem exec_modify_memory {i : Instr} (h : i.mnemonic ∈ modifyMnemonics) {s : State} {ea : Word} {crossed : Bool}
    (operand : (resolve i.mode s).1 = .mem ea crossed) :
    let r := modified i.mnemonic (operandByte i.mode s) (s.flag .c)
    let u := busWrite ea r.result (afterLoad i.mode s)
    ∃ t, exec i s = .next t ∧ t.p = shiftFlags r s.p ∧ SameMemory u t ∧ t.bus = u.bus ∧
      t = { u with p := t.p, stepCycles := cyclesOf i.opcode false false } := by
  have count := cyclesOf_of_storing (storing_of_modify h) crossed
  rw [exec_modify h, modifyOp, operandByte, afterLoad, operand, ← count]
  exact ⟨_, rfl, rfl, ⟨rfl, rfl, rfl, rfl, rfl, rfl⟩, rfl, rfl⟩

/-- On the accumulator, a read-modify-write changes A, P and the count alone. -/
theorem exec_modify_accumulator {i : Instr} (h : i.mnemonic ∈ modifyMnemonics) (accumulator : i.mode = .accumulator)
    (s : State) :
    let r := modified i.mnemonic s.a (s.flag .c)
    ∃ t, exec i s = .next t ∧ t.a = r.result ∧ t.p = shiftFlags r s.p ∧ SameMemory s t ∧
      t = { s with a := t.a, p := t.p, stepCycles := cyclesOf i.opcode false false } := by
  rw [exec_modify h, accumulator]
  exact ⟨_, rfl, rfl, rfl, ⟨rfl, rfl, rfl, rfl, rfl, rfl⟩, rfl⟩

/-- Loading an operand from memory adds one read of its address to the log. -/
theorem afterLoad_bus {m : Mode} {s : State} {ea : Word} {crossed : Bool} (operand : (resolve m s).1 = .mem ea crossed) :
    (afterLoad m s).bus = ⟨.cpu, .read, ea, operandByte m s⟩ :: (resolve m s).2.bus := by
  rw [afterLoad, operandByte, operand]
  rfl

/-- Resolving and loading an operand keeps the memory. -/
theorem SameMemory.afterLoad (m : Mode) (s : State) : SameMemory s (afterLoad m s) := by
  rw [afterLoad_frame]
  exact ⟨rfl, rfl, rfl, rfl, rfl, rfl⟩

end Sys2Proof.Machine
end

section
/-! SUPPORT. The obligations on shifts, rotates, INC and DEC (46_shift_rotate R280 to R284; 47_inc_dec R290, R291). -/

open Sys2Proof
open Sys2Proof.Machine

/-- Settles O24: one load, then one bus write of the result, and what that does follows the address decode. -/
theorem readModifyWriteOnMemory : Obligations.ReadModifyWriteOnMemory := by
  intro i s modify onMemory inv v r
  obtain ⟨ea, crossed, operand⟩ := resolve_of_storing (storing_of_modify modify) onMemory s
  obtain ⟨t, run, status, memory, log, frame⟩ := exec_modify_memory modify operand
  obtain ⟨carry, zero, negative, kept⟩ := flag_of_shiftFlags status
  refine ⟨ea, crossed, t, operand, run, ?_, ?_, carry, zero, negative, kept, ?_⟩
  · have loaded : (afterLoad i.mode s).Inv := (Within.afterLoad (w := footprint i.mnemonic i.mode) i.mode).inv inv
    exact SameMemory.storeEffect (.afterLoad i.mode s) memory (storeEffect_busWrite loaded ea r)
  · rw [frame, busWrite_frame, afterLoad_frame]
  · rw [log, ← afterLoad_bus operand]
    exact busWrite_log ea r (afterLoad i.mode s)

/-- Settles O25: the operand is A, so the result is stored there and no bus access is made. -/
theorem shiftsOnAccumulator : Obligations.ShiftsOnAccumulator := by
  intro i s h r
  obtain ⟨modify, accumulator, count⟩ :
      i.mnemonic ∈ modifyMnemonics ∧ i.mode = .accumulator ∧ cyclesOf i.opcode false false = 2 := by
    revert i
    decide
  obtain ⟨t, run, result, status, memory, frame⟩ := exec_modify_accumulator modify accumulator s
  obtain ⟨carry, zero, negative, kept⟩ := flag_of_shiftFlags status
  exact ⟨t, run, result, carry, zero, negative, kept, memory.memoryUnchanged, count ▸ frame⟩

end

section
/-! SUPPORT. The obligation on INX, INY, DEX and DEY (47_inc_dec R292 to R295). -/

open Sys2Proof
open Sys2Proof.Machine

/-- Settles O33: each is one register's byte plus or minus one, with Z and N of the new value. -/
theorem indexIncrementsAndDecrements : Obligations.IndexIncrementsAndDecrements := by
  have plusOne (r : Byte) : (r + 1#8).toNat = (r.toNat + 1) % 256 := BitVec.toNat_add r 1#8
  have minusOne (r : Byte) : (r - 1#8).toNat = (r.toNat + 255) % 256 := BitVec.toNat_sub' r 1#8
  refine ⟨rfl, fun s => ⟨?inx, ?iny, ?dex, ?dey⟩⟩
  case inx => exact ⟨_, exec_implied (exec_inx rfl s), plusOne s.x, nzFlags_of_setNZ rfl, rfl⟩
  case iny => exact ⟨_, exec_implied (exec_iny rfl s), plusOne s.y, nzFlags_of_setNZ rfl, rfl⟩
  case dex => exact ⟨_, exec_implied (exec_dex rfl s), minusOne s.x, nzFlags_of_setNZ rfl, rfl⟩
  case dey => exact ⟨_, exec_implied (exec_dey rfl s), minusOne s.y, nzFlags_of_setNZ rfl, rfl⟩

end

section
/-! SUPPORT. Control transfer (48_control_transfer): a word on the stack, and each instruction as its update of the state and
its count. -/

namespace Sys2Proof.Machine

/-- A word pushed is its two bytes written downwards from S, high byte first (20_memory R92). -/
theorem pushWord_eq (w : Word) (s : State) :
    pushWord w s =
      { s with
        sp := s.sp - 2#8
        ram := (s.ram.write (0x100 + s.sp.toNat) (hiByte w)).write (0x100 + (s.sp - 1#8).toNat) (loByte w)
        bus := ⟨.cpu, .write, stackAddress (s.sp - 1#8), loByte w⟩ :: ⟨.cpu, .write, stackAddress s.sp, hiByte w⟩ ::
          s.bus } := by
  have second : s.sp - 1#8 - 1#8 = s.sp - 2#8 := by bv_omega
  simp only [pushWord, push_eq, second]

/-- A word pulled is the two bytes above S, low byte first (48_control_transfer R312). -/
theorem pullWord_eq (s : State) :
    pullWord s =
      (mkWord (s.ram.read (0x100 + (s.sp + 2#8).toNat)) (s.ram.read (0x100 + (s.sp + 1#8).toNat)),
       { s with
         sp := s.sp + 2#8
         bus := ⟨.cpu, .read, stackAddress (s.sp + 2#8), s.ram.read (0x100 + (s.sp + 2#8).toNat)⟩ ::
           ⟨.cpu, .read, stackAddress (s.sp + 1#8), s.ram.read (0x100 + (s.sp + 1#8).toNat)⟩ :: s.bus }) := by
  have second : s.sp + 1#8 + 1#8 = s.sp + 2#8 := by bv_omega
  simp only [pullWord, pull_eq, second]

/-- A stack byte after a write of one in the stack page: the byte written where S is the same (20_memory R103). -/
theorem read_write_stack {m : Memory} (hm : m.wf = true) (p q v : Byte) :
    (m.write (0x100 + p.toNat) v).read (0x100 + q.toNat) = if p = q then v else m.read (0x100 + q.toNat) := by
  rw [Memory.read_write _ _ _ _ hm]
  simp only [Nat.add_left_cancel_iff, BitVec.toNat_inj]

/-- A pull of a word with RAM and S as a push of one left them gives the word pushed, and S from before the push. -/
theorem pullWord_of_pushWord {s u : State} (hs : s.Inv) {w : Word} (ram : u.ram = (pushWord w s).ram)
    (sp : u.sp = (pushWord w s).sp) : (pullWord u).1 = w ∧ (pullWord u).2.sp = s.sp := by
  rw [pushWord_eq] at ram sp
  have top : u.sp + 2#8 = s.sp := by rw [sp, BitVec.sub_add_cancel]
  have below : u.sp + 1#8 = s.sp - 1#8 := by
    rw [sp]
    bv_omega
  have distinct : s.sp - 1#8 ≠ s.sp := by bv_omega
  simp only [pullWord_eq, top, below, ram, read_write_stack (Memory.wf_write _ _ _ hs.ramWf),
    read_write_stack hs.ramWf, distinct, if_true, if_false, mkWord_hiByte_loByte, and_self]

/-- A branch takes two cycles, one more when it is taken, and another when it is taken across a page (30_encoding R202). -/
theorem cyclesOf_branch {i : Instr} (branch : i.mnemonic ∈ branchMnemonics) (crossed taken : Bool) :
    cyclesOf i.opcode crossed taken = 2 + (if taken then 1 else 0) + (if taken && crossed then 1 else 0) := by
  have entries : ∀ mn ∈ branchMnemonics, mn ≠ .unknown ∧ ∀ m, baseCount mn m = 2 := by
    simp [branchMnemonics, baseCount]
  obtain ⟨documented, base⟩ := entries _ branch
  obtain ⟨count, mark⟩ := cell_opcode documented
  rw [cyclesOf_eq, count, base, mark, (penaltyMark_eq_branch _ _).mpr branch]
  simp

/-- A conditional branch, whatever its flag, moves PC and counts its cycles as R300 says. -/
theorem exec_branch {i : Instr} {f : Flag} {want taken : Bool} {off : Byte} {s : State}
    (meaning : exec i s = .next (branchOp f want i.opcode i.mode s)) (condition : (s.flag f == want) = taken)
    (relative : i.mode = .relative off := by rfl)
    (branch : i.mnemonic ∈ branchMnemonics := by simp [branchMnemonics, Instr.mnemonic]) :
    exec i s = .next (branchOutcome taken off s) := by
  rw [meaning, relative, branchOp]
  simp only [retire, cyclesOf_branch branch, condition]
  cases taken with
  | false => rfl
  | true => rfl

/-! Each of the other instructions as its update of the state, with its count (48_control_transfer R310 to R312). -/

theorem exec_jmpAbs_eq (a : Word) (s : State) : exec (.jmpAbs a) s = .next { s with pc := a, stepCycles := 3 } := rfl

theorem exec_jmpInd_eq (ptr : Word) (s : State) :
    exec (.jmpInd ptr) s = .next { (pointerWord ptr s).2 with pc := (pointerWord ptr s).1, stepCycles := 5 } := rfl

theorem exec_jsr_eq (a : Word) (s : State) :
    exec (.jsr a) s = .next { pushWord (s.pc - 1#16) s with pc := a, stepCycles := 6 } := rfl

theorem exec_rts_eq (s : State) :
    exec .rts s = .next { (pullWord s).2 with pc := (pullWord s).1 + 1#16, stepCycles := 6 } :=
  exec_implied_cycles (exec_rts rfl s) rfl rfl

end Sys2Proof.Machine
end

section
/-! SUPPORT. The obligations on branches, jumps and subroutines (48_control_transfer R300 to R312). -/

open Sys2Proof
open Sys2Proof.Machine

/-- Settles O18: the pull gives the word JSR pushed, PC - 1, and RTS adds 1. -/
theorem rtsUndoesJsr : Obligations.RtsUndoesJsr := by
  intro a s inv
  refine ⟨_, _, exec_jsr_eq a s, rfl, exec_rts_eq _, ?_⟩
  obtain ⟨value, sp⟩ :=
    pullWord_of_pushWord (w := s.pc - 1#16) (u := { pushWord (s.pc - 1#16) s with pc := a, stepCycles := 6 }) inv rfl rfl
  refine ⟨?_, sp, ?_⟩
  · rw [value, BitVec.sub_add_cancel]
  · rw [pullWord_eq, pushWord_eq]
    exact ⟨rfl, rfl, rfl, rfl⟩

/-- Settles O14: the eight branches are one operation on their flag and the value it is to have. -/
theorem branchesFollowTheirFlag : Obligations.BranchesFollowTheirFlag := by
  intro off s
  exact ⟨exec_branch (exec_bpl rfl s) (beq_false _), exec_branch (exec_bmi rfl s) (beq_true _),
    exec_branch (exec_bvc rfl s) (beq_false _), exec_branch (exec_bvs rfl s) (beq_true _),
    exec_branch (exec_bcc rfl s) (beq_false _), exec_branch (exec_bcs rfl s) (beq_true _),
    exec_branch (exec_bne rfl s) (beq_false _), exec_branch (exec_beq rfl s) (beq_true _), rfl⟩

/-- Settles O15: JMP Indirect's two reads are its only accesses, the second in the state after the first. -/
theorem jumpSetsPc : Obligations.JumpSetsPc :=
  ⟨fun _ => rfl, fun _ => rfl, exec_jmpAbs_eq, fun ptr s => ⟨_, exec_jmpInd_eq ptr s, rfl, rfl⟩⟩

/-- Settles O16: JSR is one push of PC - 1 and a jump. -/
theorem jsrPushesReturnAddress : Obligations.JsrPushesReturnAddress := by
  intro a s
  refine ⟨rfl, ?_⟩
  rw [exec_jsr_eq, pushWord_eq]

/-- Settles O17: RTS is one pull of a word, plus 1. -/
theorem rtsReturnsPastTheCall : Obligations.RtsReturnsPastTheCall := by
  refine ⟨rfl, fun s => ?_⟩
  rw [exec_rts_eq, pullWord_eq]

end

section
/-! SUPPORT. Exceptions (60_exceptions; 49_system_flags R320, R321): the interrupt entries, BRK and RTI as updates of the
state, and RTI on the stack an exception left. -/

namespace Sys2Proof.Machine

/-- An exception leaves `afterEntry`, since both its vectors stand in PRG-ROM space (20_memory R102). -/
theorem takeException_afterEntry {vector : Word} (h : vector = Config.nmiVector ∨ vector = Config.irqVector) (ret : Word)
    (brk : Bool) (s : State) : takeException vector ret brk s = afterEntry vector ret brk s := by
  obtain rfl | rfl := h
  · exact takeException_eq _ ret brk s (by decide) (by decide)
  · exact takeException_eq _ ret brk s (by decide) (by decide)

theorem interruptEntry_eq {vector : Word} (h : vector = Config.nmiVector ∨ vector = Config.irqVector) (s : State) :
    interruptEntry vector s = { afterEntry vector s.pc false s with stepCycles := 7 } := by
  rw [interruptEntry, takeException_afterEntry h]

theorem exec_brk_eq (s : State) :
    exec .brk s = .next { afterEntry Config.irqVector (s.pc + 1#16) true s with stepCycles := 7 } := by
  have run : exec .brk s = .next { takeException Config.irqVector (s.pc + 1#16) true s with stepCycles := 7 } := rfl
  rw [run, takeException_afterEntry (.inr rfl)]

theorem exec_rti_eq (s : State) : exec .rti s = .next { returnFromException s with stepCycles := 6 } :=
  exec_implied_cycles (exec_rti rfl s) rfl rfl

/-- The stack an exception left holds P as pushed, then the return address, low byte first, above S. -/
theorem afterEntry_stack {s : State} (inv : s.Inv) (vector ret : Word) (brk : Bool) :
    let u := afterEntry vector ret brk s
    u.ram.read (0x100 + (u.sp + 1#8).toNat) = pushedP brk s.p ∧
      u.ram.read (0x100 + (u.sp + 2#8).toNat) = loByte ret ∧
      u.ram.read (0x100 + (u.sp + 3#8).toNat) = hiByte ret := by
  have first : s.sp - 3#8 + 3#8 = s.sp := by bv_omega
  have second : s.sp - 3#8 + 2#8 = s.sp - 1#8 := by bv_omega
  have third : s.sp - 3#8 + 1#8 = s.sp - 2#8 := by bv_omega
  obtain ⟨ne12, ne02, ne01⟩ : s.sp - 2#8 ≠ s.sp - 1#8 ∧ s.sp - 2#8 ≠ s.sp ∧ s.sp - 1#8 ≠ s.sp := by
    refine ⟨?_, ?_, ?_⟩ <;> bv_omega
  have wf1 := Memory.wf_write _ (0x100 + s.sp.toNat) (hiByte ret) inv.ramWf
  have wf2 := Memory.wf_write _ (0x100 + (s.sp - 1#8).toNat) (loByte ret) wf1
  simp only [afterEntry, first, second, third, read_write_stack wf2, read_write_stack wf1, read_write_stack inv.ramWf,
    ne12, ne02, ne01, if_true, if_false, pushedP, and_self]

/-- RTI right after an exception, the count apart, gives back P and S, and PC the return address (60_exceptions R351). -/
theorem rti_undoes_afterEntry {s : State} (inv : s.Inv) (vector ret : Word) (brk : Bool) (cycles : Nat) :
    ∃ t, exec .rti { afterEntry vector ret brk s with stepCycles := cycles } = .next t ∧
      t.p = s.p ∧ t.pc = ret ∧ t.sp = s.sp ∧ t.a = s.a ∧ t.x = s.x ∧ t.y = s.y := by
  obtain ⟨status, low, high⟩ := afterEntry_stack inv vector ret brk
  refine ⟨_, exec_rti_eq _, ?_⟩
  simp only [returnFromException_eq, status, low, high, restoreP_pushedP inv.bit5 inv.break0, mkWord_hiByte_loByte,
    true_and]
  exact ⟨BitVec.sub_add_cancel _ _, rfl, rfl, rfl⟩

end Sys2Proof.Machine
end

section
/-! SUPPORT. The obligations on BRK, RTI, the flag instructions and NOP (49_system_flags R320 to R329). -/

open Sys2Proof
open Sys2Proof.Machine

/-- Settles O13: RTI finds on the stack what the entry or BRK pushed; P comes back whole since its B is 0 and its bit 5 is 1. -/
theorem rtiUndoesExceptionEntry : Obligations.RtiUndoesExceptionEntry := by
  intro s inv
  rw [interruptEntry_eq (.inl rfl), interruptEntry_eq (.inr rfl)]
  refine ⟨rti_undoes_afterEntry inv _ _ _ _, rti_undoes_afterEntry inv _ _ _ _, ?_⟩
  obtain ⟨t, rti, restored⟩ := rti_undoes_afterEntry inv Config.irqVector (s.pc + 1#16) true 7
  exact ⟨_, t, exec_brk_eq s, rti, restored⟩

/-- Settles O11: BRK is the shared exception entry with PC + 1 and B set. -/
theorem brkTakesTheTrap : Obligations.BrkTakesTheTrap := ⟨rfl, exec_brk_eq⟩

/-- Settles O12: RTI is the shared return from an exception, three pulls. -/
theorem rtiRestoresStatusAndPc : Obligations.RtiRestoresStatusAndPc := by
  refine ⟨rfl, fun s => ?_⟩
  rw [exec_rti_eq, returnFromException_eq]
  rfl

/-- Settles O34: each is one write of a flag, or nothing, and two cycles. -/
theorem flagOperationsWriteOneFlag : Obligations.FlagOperationsWriteOneFlag := by
  refine ⟨rfl, fun s => ⟨fun e he => ?_, exec_implied (exec_nop rfl s)⟩⟩
  have writes : exec e.1 s = .next { s.withFlag e.2.1 e.2.2 with stepCycles := 2 } := by
    simp only [List.mem_cons, List.not_mem_nil, or_false] at he
    obtain rfl | rfl | rfl | rfl | rfl | rfl | rfl := he
    · exact exec_implied (exec_clc rfl s)
    · exact exec_implied (exec_sec rfl s)
    · exact exec_implied (exec_cli rfl s)
    · exact exec_implied (exec_sei rfl s)
    · exact exec_implied (exec_clv rfl s)
    · exact exec_implied (exec_cld rfl s)
    · exact exec_implied (exec_sed rfl s)
  exact ⟨_, writes, getFlag_setFlag_same _ _ _, fun f hf => getFlag_setFlag_other hf _ _, rfl⟩

end

section
/-! SUPPORT. The step by what is pending (60_exceptions R341 to R349, R361), and the interrupt latches, which no instruction
writes. -/

namespace Sys2Proof.Machine

/-! The step of a running machine with NMI pending, with an unmasked IRQ pending, and of a halted machine. -/

theorem step_of_nmi {s : State} (run : s.halted = .running) (nmi : s.nmiPending = true) : step s = .next (nmiEntry s) := by
  simp only [step, run, nmi, if_true]

theorem step_of_irq {s : State} (run : s.halted = .running) (nmi : s.nmiPending = false) (irq : s.irqPending = true)
    (unmasked : s.flag .i = false) : step s = .next (irqEntry s) := by
  simp only [step, run, nmi, irq, unmasked, Bool.false_eq_true, if_false, Bool.not_false, Bool.and_self, if_true]

theorem step_of_halted {s : State} {pc : Word} {op : Byte} (halted : s.halted = .halted pc op) :
    step s = .fault (.machineHalted pc op) := by
  simp only [step, halted]

theorem cpuReset_of_halted {s : State} {pc : Word} {op : Byte} (halted : s.halted = .halted pc op) :
    cpuReset s = .fault (.machineHalted pc op) := by
  simp only [cpuReset, halted]

theorem cpuReset_of_running {s : State} (run : s.halted = .running) : cpuReset s = .next (resetSequence s) := by
  simp only [cpuReset, run]

theorem assertNmi_of_running {s : State} (run : s.halted = .running) : assertNmi s = { s with nmiPending := true } := by
  simp only [assertNmi, run]

theorem assertIrq_of_running {s : State} (run : s.halted = .running) : assertIrq s = { s with irqPending := true } := by
  simp only [assertIrq, run]

/-- On a halted machine an assertion has no effect (60_exceptions R361). -/
theorem assert_of_halted {s : State} {pc : Word} {op : Byte} (halted : s.halted = .halted pc op) :
    assertNmi s = s ∧ assertIrq s = s := by
  simp only [assertNmi, assertIrq, halted, and_self]

/-! The entries through their vectors. -/

theorem nmiEntry_eq (s : State) :
    nmiEntry s = { afterEntry Config.nmiVector s.pc false s with stepCycles := 7, nmiPending := false } := by
  rw [nmiEntry, interruptEntry_eq (.inl rfl)]

theorem irqEntry_eq (s : State) :
    irqEntry s = { afterEntry Config.irqVector s.pc false s with stepCycles := 7, irqPending := false } := by
  rw [irqEntry, interruptEntry_eq (.inr rfl)]

/-- `t` has the interrupt latches of `s`. -/
def SameLatches (s t : State) : Prop := t.nmiPending = s.nmiPending ∧ t.irqPending = s.irqPending

namespace SameLatches

variable {s t u : State}

theorem trans (h : SameLatches s t) (h' : SameLatches t u) : SameLatches s u := ⟨h'.1.trans h.1, h'.2.trans h.2⟩

/-- An update of the state that keeps both latches by its definition. -/
theorem keep (nmi : t.nmiPending = s.nmiPending := by rfl) (irq : t.irqPending = s.irqPending := by rfl) :
    SameLatches s t := ⟨nmi, irq⟩

theorem busWrite (a : Word) (v : Byte) : SameLatches s (busWrite a v s) :=
  ⟨busWrite_nmiPending a v s, busWrite_irqPending a v s⟩

theorem push (v : Byte) : SameLatches s (push v s) := (busWrite _ v).trans .keep

theorem pushWord (w : Word) : SameLatches s (pushWord w s) := (push _).trans (push _)

theorem withFlag (f : Flag) (v : Bool) : SameLatches s (s.withFlag f v) := .keep

theorem readWord (a : Word) : SameLatches s (readWord a s).2 := .keep

theorem takeException (vector ret : Word) (brk : Bool) : SameLatches s (takeException vector ret brk s) :=
  (((pushWord ret).trans (push _)).trans (withFlag .i true)).trans ((readWord vector).trans .keep)

theorem resolve (m : Mode) : SameLatches s (resolve m s).2 := by
  rw [resolve_frame]
  exact .keep

theorem load (o : Operand) : SameLatches s (load o s).2 := by
  rw [load_frame]
  exact .keep

theorem store (o : Operand) (v : Byte) : SameLatches s (store o v s) := by
  cases o with
  | mem ea _ => exact busWrite ea v
  | none | acc | imm _ | target _ _ => exact .keep

/-! The shapes of the instruction meanings. -/

variable {op : Byte} {m : Mode}

theorem readOp {f : Byte → State → State} (hf : ∀ v t, SameLatches t (f v t)) : SameLatches s (readOp f op m s) :=
  (((resolve m).trans (load _)).trans (hf _ _)).trans .keep

theorem storeOp {g : State → Byte} : SameLatches s (storeOp g op m s) := ((resolve m).trans (store _ _)).trans .keep

theorem modifyOp {f : Byte → Bool → Byte} {g : Byte → Byte → Byte} : SameLatches s (modifyOp f g op m s) :=
  (((resolve m).trans (load _)).trans (store _ _)).trans .keep

theorem impliedOp {f : State → State} (hf : ∀ t, SameLatches t (f t)) : SameLatches s (impliedOp f op m s) :=
  ((resolve m).trans (hf _)).trans .keep

theorem branchOp {f : Flag} {want : Bool} : SameLatches s (branchOp f want op m s) := by
  refine (resolve m).trans ?_
  dsimp only [Machine.branchOp]
  split
  · exact .keep
  · exact .keep

end SameLatches

/-- No operation writes a latch. -/
theorem executeMnemonic_sameLatches {mn : Mnemonic} {op : Byte} {m : Mode} {s t : State}
    (h : executeMnemonic mn op m s = .next t) : SameLatches s t := by
  cases mn with
  | lda | ldx | ldy | adc | sbc | and | ora | eor | cmp | cpx | cpy | bit =>
    cases h
    exact .readOp fun _ _ => .keep
  | sta | stx | sty =>
    cases h
    exact .storeOp
  | asl | lsr | rol | ror | inc | dec =>
    cases h
    exact .modifyOp
  | tax | tay | txa | tya | tsx | txs | inx | iny | dex | dey | pla | plp | rts | rti | clc | sec | cli | sei | clv | cld
    | sed | nop =>
    cases h
    exact .impliedOp fun _ => .keep
  | pha | php =>
    cases h
    exact .impliedOp fun _ => .push _
  | bpl | bmi | bvc | bvs | bcc | bcs | bne | beq =>
    cases h
    exact .branchOp
  | jmp =>
    cases h
    exact (SameLatches.resolve m).trans .keep
  | jsr =>
    cases h
    exact ((SameLatches.resolve m).trans (.pushWord _)).trans .keep
  | brk =>
    cases h
    exact .impliedOp fun _ => .takeException _ _ _
  | unknown => cases h

theorem SameLatches.exec {i : Instr} {s t : State} (h : exec i s = .next t) : SameLatches s t :=
  executeMnemonic_sameLatches (exec_eq i s ▸ h)

theorem SameLatches.fetchInstr (s : State) : SameLatches s (fetchInstr s).2 := by
  rw [fetchInstr_frame]
  exact .keep

end Sys2Proof.Machine
end

section
/-! SUPPORT. The obligations on interrupts, the halt and the CPU reset (60_exceptions; 70_reset_and_hazards R384 to R387). -/

open Sys2Proof
open Sys2Proof.Machine

/-- Settles O8: an entry clears the latch it serves and keeps the other; a fetched instruction keeps both. -/
theorem latchesSetByAssertionClearedByServiceOrReset : Obligations.LatchesSetByAssertionClearedByServiceOrReset := by
  refine ⟨fun s t h => ?_, fun s run => ?_⟩
  · obtain ⟨-, ⟨nmi, rfl⟩ | ⟨nmi, irq, unmasked, rfl⟩ | ⟨nmi, notTaken, h⟩⟩ := step_cases h
    · rw [nmiEntry_eq, nmi, Bool.true_or, Bool.and_true]
      exact ⟨rfl, rfl⟩
    · rw [irqEntry_eq, nmi, unmasked, Bool.or_false, Bool.and_false]
      exact ⟨nmi, rfl⟩
    · obtain ⟨nmiKept, irqKept⟩ := (SameLatches.fetchInstr s).trans (.exec h)
      refine ⟨nmiKept.trans nmi, ?_⟩
      rw [irqKept, nmi, Bool.false_or]
      cases hirq : s.irqPending with
      | false => rfl
      | true => simpa [-flag_eq, hirq] using notTaken
  · have nmiMove : hostMove .assertNmi s = .next { s with nmiPending := true } := congrArg _ (assertNmi_of_running run)
    have irqMove : hostMove .assertIrq s = .next { s with irqPending := true } := congrArg _ (assertIrq_of_running run)
    refine ⟨nmiMove, irqMove, fun nmi => ?_, fun irq => ?_, _, cpuReset_of_running run, rfl, rfl⟩
    · rw [nmiMove, ← nmi]
    · rw [irqMove, ← irq]

/-- Settles O7: NMI comes before IRQ, and IRQ waits for P.I; both entries read their vector from PRG-ROM space. -/
theorem interruptEntrySteps : Obligations.InterruptEntrySteps := by
  refine fun s run => ⟨fun nmi => ?_, fun nmi irq unmasked => ?_, fun nmi _ masked => ?_⟩
  · rw [step_of_nmi run nmi, nmiEntry_eq]
  · rw [step_of_irq run nmi irq unmasked, irqEntry_eq]
  · exact step_eq_exec run nmi (.inr masked)

/-- Settles O10: each move on a halted machine, and the first step of a run. -/
theorem haltedMachineNeverSteps : Obligations.HaltedMachineNeverSteps := by
  intro s pc op halted
  obtain ⟨nmi, irq⟩ := assert_of_halted halted
  refine ⟨step_of_halted halted, cpuReset_of_halted halted, congrArg _ nmi, congrArg _ irq, fun n => ?_⟩
  have stops : Sys2Proof.core.step s = .fault (.machineHalted pc op) := step_of_halted halted
  simp only [Host.Core.run, stops]

/-- Settles O51: a reset of a running machine is the reset sequence, whose reads take no draw. -/
theorem cpuResetSequence : Obligations.CpuResetSequence := by
  intro s run
  exact (cpuReset_of_running run).trans (congrArg _ (resetSequence_eq s))

end

section
/-! SUPPORT. The reset vector of a machine just powered on (70_reset_and_hazards R388). -/

namespace Sys2Proof.Machine

/-- Power-on leaves PC at the word that the constructed machine reads at the reset vector. -/
theorem powerOn_pc {c : Cartridge} {s : State} (banks : 1 ≤ c.prgBanks) (on : powerOn c = .ok s) :
    s.pc = mkWord (readValue 0xFFFD#16 (constructed c)) (readValue 0xFFFC#16 (constructed c)) := by
  rw [powerOn_of_banks (Nat.one_le_iff_ne_zero.mp banks), resetSequence_eq] at on
  cases on
  rfl

/-- On SxROM and UNROM the slot at 0xC000 holds the last bank at power-on (20_memory R120, R130, R143). -/
theorem readValue_constructed_lastBank {c : Cartridge} (mapper : c.mapper = .sxrom ∨ c.mapper = .unrom)
    (banks : 1 ≤ c.prgBanks) {a : Word} (h : 0xC000 ≤ a.toNat) :
    readValue a (constructed c) = c.prgRom.read ((c.prgBanks - 1) * 0x4000 + a.toNat % 0x4000) := by
  obtain mapper | mapper := mapper
  · obtain ⟨-, -, high⟩ := sxromProgramReads (constructed c) a mapper banks (by omega)
    rw [high rfl h, ← lastBank_mod banks]
    rfl
  · obtain ⟨-, -, high, -⟩ := unromProgramSide (constructed c) a mapper banks
    exact high h

end Sys2Proof.Machine
end

section
/-! SUPPORT. The obligation on the power-on reset vector (70_reset_and_hazards R388). -/

open Sys2Proof
open Sys2Proof.Machine

/-- Settles O50: PC is the word at the reset vector, and each mapper's power-on bank says where that stands in PRG-ROM. -/
theorem resetVectorInPrgRom : Obligations.ResetVectorInPrgRom := by
  intro c s banks on word
  rw [powerOn_pc banks on]
  obtain ⟨-, high, -, -⟩ := nromAndCnromProgramSide (constructed c) 0xFFFD#16
  obtain ⟨-, low, -, -⟩ := nromAndCnromProgramSide (constructed c) 0xFFFC#16
  refine ⟨fun mapper one => ?_, fun mapper more => ?_, fun mapper => ?_⟩
  · rw [(high mapper (by decide)).1 one, (low mapper (by decide)).1 one]
    rfl
  · rw [(high mapper (by decide)).2 more, (low mapper (by decide)).2 more]
    rfl
  · rw [readValue_constructed_lastBank mapper banks (by decide), readValue_constructed_lastBank mapper banks (by decide)]
    simp only [word, Nat.add_assoc]
    rfl

end
